-- ==== Sys2Proof/Word.lean ====
section
/-! DEFINITION. The word and byte types of the command and event channels (30_encoding.md R90, 20_memory.md R73). -/

namespace Sys2Proof

/-- A command, event or operand word: 32 bits, bit 31 the most significant (30_encoding.md R90). -/
abbrev Word := BitVec 32

/-- One byte of a byte transport of words (20_memory.md R73). -/
abbrev Byte := BitVec 8

end Sys2Proof
end

