-- ==== Sys2Proof/Config.lean ====
section
/-! DEFINITION. What an implementation fixes (the OPEN parameters of 00_scope.md R12 to R18) and the free values
(`draw`, 00_scope.md R27). The constants declared `opaque` have no body: nothing can be proved of their value. -/

namespace Sys2Proof

/-- The two legal values of `SERVO_CW_US` (00_scope.md R16). -/
inductive ServoEnd where
  | us500
  | us2500
  deriving DecidableEq, Repr, Inhabited

/-- A servo position name (00_scope.md R17). -/
inductive Position where
  | center
  | fullCw
  | fullCcw
  deriving DecidableEq, Repr, Inhabited

/-- The OPEN parameters of 00_scope.md R12 to R18. A machine has one value of this record for good: no step writes it
(log entry 4). -/
structure Params where
  /-- `F_CLK_HZ`, R12 -/
  fClkHz : Nat
  /-- `TIMER_WIDTH[t]`, R13 -/
  timerWidth : Vector Nat 2
  /-- `PRESCALERS[t]`, in search order, R14 -/
  prescalers : Vector (List Nat) 2
  /-- `PWM_PERIOD_US`, R15 -/
  pwmPeriodUs : Nat
  /-- `PWM_TICK_US`, R15 -/
  pwmTickUs : Nat
  /-- `SERVO_CW_US`, R16 -/
  servoCw : ServoEnd
  /-- `POS_LOCKED`, R17 -/
  posLocked : Position
  /-- `POS_UNLOCKED`, R17 -/
  posUnlocked : Position
  /-- `BLINK_PHASE_US`, R18 -/
  blinkPhaseUs : Nat
  deriving DecidableEq, Repr, Inhabited

/-- The constraints that 00_scope.md R12 to R15, R18 and R21 put on the parameters. A premise of the statements that
need it, never a test the machine makes (93_implementation_defined.md U11, log entry 14). -/
abbrev Params.Wf (p : Params) : Prop :=
  1 ≤ p.fClkHz ∧
  (∀ t : Fin 2, 1 ≤ p.timerWidth[t.val] ∧ p.timerWidth[t.val] ≤ 32) ∧
  (∀ t : Fin 2, p.prescalers[t.val] ≠ [] ∧ p.prescalers[t.val].Nodup ∧ ∀ q ∈ p.prescalers[t.val], 1 ≤ q) ∧
  1 ≤ p.pwmPeriodUs ∧ p.pwmPeriodUs < 2 ^ 30 ∧
  1 ≤ p.pwmTickUs ∧ p.pwmTickUs < 2 ^ 30 ∧
  p.pwmPeriodUs + p.pwmTickUs + 2500 < 2 ^ 31 ∧
  1 ≤ p.blinkPhaseUs ∧ p.blinkPhaseUs < 2 ^ 32

/-- The parameters of the machine that is reset: no value is given for them (00_scope.md R12 to R18, R23; log entry 4). -/
opaque Config.params : Params

/-- `draw(UInt2)`: the levels the wiper pins show at power-on (10_state.md R33; log entry 5). -/
opaque Config.powerOnPins : BitVec 2

/-- `draw(UInt4)`: digit `i` of the combination after power-on number `k` (10_state.md R53; log entry 6). -/
opaque Config.drawDigit : Nat → Fin 3 → BitVec 4

end Sys2Proof
end

