-- ==== Sys2Proof/Syntax.lean ====
section
/-! DEFINITION. The commands and events: one constructor per row of spec/opcode_table.json (30_encoding.md R102). -/

namespace Sys2Proof

/-- The two channels the block reads (30_encoding.md R91). -/
inductive Channel where
  /-- the host command channel, opcodes 0x00 to 0x7F -/
  | host
  /-- the environment event channel, opcodes 0x80 to 0xFF -/
  | event
  deriving DecidableEq, Repr

/-- A host command or an environment event, with the fields its format carries (30_encoding.md R94 to R100). -/
inductive Instr where
  /-- QD.SAMPLE, format N, 40_quadrature.md R120 -/
  | qdSample
  /-- QD.GETDIR, format N, 40_quadrature.md R122 -/
  | qdGetdir
  /-- TMR.CONFIG, format TP, 41_timer.md R142 -/
  | tmrConfig (tid : BitVec 8) (period : BitVec 32)
  /-- TMR.REGISR, format TSH, 41_timer.md R150 -/
  | tmrRegisr (tid : BitVec 8) (slot : BitVec 4) (hid : BitVec 8)
  /-- TMR.RESET, format T, 41_timer.md R152 -/
  | tmrReset (tid : BitVec 8)
  /-- TMR.REGPER, format THP, 41_timer.md R153 -/
  | tmrRegper (tid : BitVec 8) (hid : BitVec 8) (period : BitVec 32)
  /-- TMR.RESETPER, format T, 41_timer.md R155 -/
  | tmrResetper (tid : BitVec 8)
  /-- SRV.CENTER, format N, 42_pwm_servo.md R188 -/
  | srvCenter
  /-- SRV.CW, format N, 42_pwm_servo.md R189 -/
  | srvCw
  /-- SRV.CCW, format N, 42_pwm_servo.md R190 -/
  | srvCcw
  /-- LOCK.CTRL, format LK, 43_lock_fsm.md R200 -/
  | lockCtrl (bl : Bool) (br : Bool) (sw : Bool) (kv : Bool) (key : BitVec 4)
  /-- LOCK.RSTCOMB, format N, 43_lock_fsm.md R244 -/
  | lockRstcomb
  /-- LOCK.CHECK, format N, 43_lock_fsm.md R245 -/
  | lockCheck
  /-- EV.QDEDGE, format QE, 40_quadrature.md R124 -/
  | evQdedge (code : BitVec 2)
  /-- EV.TMRTICK, format T, 41_timer.md R157 -/
  | evTmrtick (tid : BitVec 8)
  /-- EV.USTICK, format N, 41_timer.md R163 -/
  | evUstick
  /-- EV.PORST, format N, 70_reset_and_hazards.md R290 -/
  | evPorst
  /-- EV.SOFTRST, format N, 70_reset_and_hazards.md R291 -/
  | evSoftrst
  deriving DecidableEq, Repr

end Sys2Proof
end

