-- ==== Sys2Proof/Machine/Records.lean ====
section
/-! DEFINITION. The enumerations and the records that State is made of (10_state.md R33 to R64, 30_encoding.md R104,
43_lock_fsm.md R236). Types only: their values at reset stand in Machine/Initial.lean. -/

namespace Sys2Proof.Machine

/-- The quadrature states (10_state.md R34). -/
inductive QState where
  | lowLow
  | lowHigh
  | highLow
  | highHigh
  | unknown
  deriving DecidableEq, Repr

/-- The direction edges (10_state.md R37). -/
inductive Dir where
  | stationary
  | clockwise
  | counterclockwise
  deriving DecidableEq, Repr

/-- The counter modes (10_state.md R39). -/
inductive TmrMode where
  | off
  | normal
  | ctc
  deriving DecidableEq, Repr

/-- The lock states (10_state.md R52). -/
inductive LockState where
  | locked
  | unlocked
  | changing
  | alarmed
  deriving DecidableEq, Repr

/-- The response statuses (30_encoding.md R104). -/
inductive Status where
  | ok
  | noSolution
  | fail
  | illegal
  deriving DecidableEq, Repr

/-- The value of a response, with the widths of 20_memory.md R75. -/
inductive RespValue where
  /-- two bits: QD.SAMPLE and QD.GETDIR -/
  | two (v : BitVec 2)
  /-- one bit: TMR.REGISR, TMR.REGPER and LOCK.CHECK -/
  | one (v : BitVec 1)
  /-- TMR.CONFIG: the exact period `num / den` in microseconds, not reduced (41_timer.md R166; log entry 10) -/
  | period (num den : Nat)
  deriving DecidableEq, Repr

/-- A response record (30_encoding.md R104). -/
structure Response where
  status : Status
  value : Option RespValue
  deriving DecidableEq, Repr

/-- The source of a CALLBACK (60_exceptions.md R266). -/
inductive Source where
  | timer (t : Fin 2) (slot : Fin 3)
  | ticker (t : Fin 2)
  deriving DecidableEq, Repr

/-- The display record (43_lock_fsm.md R236). -/
structure DisplayRecord where
  lkState : LockState
  dial : BitVec 4
  stage : Fin 3
  badTries : BitVec 2
  chgIdx : Fin 7
  deriving DecidableEq, Repr

/-- The output events (00_scope.md R27, 10_state.md R66). -/
inductive OutEvent where
  | callback (source : Source) (h : BitVec 8)
  | display (rec : DisplayRecord)
  deriving DecidableEq, Repr

/-- The quadrature decoder (10_state.md R33 to R38). -/
structure QuadDecoder where
  /-- `qd_pins` -/
  pins : BitVec 2
  /-- `qd_state` -/
  state : QState
  /-- `qd_last` -/
  last : QState
  /-- `qd_dir` -/
  dir : Dir
  deriving DecidableEq, Repr

/-- One counter timer (10_state.md R39 to R46). The fields whose width is the parameter `TIMER_WIDTH[t]` are natural
numbers, bounded by an invariant (log entry 11). -/
structure Timer where
  /-- `tmr_mode[t]` -/
  mode : TmrMode
  /-- `tmr_presc[t]` -/
  presc : Nat
  /-- `tmr_top[t]` -/
  top : Nat
  /-- `tmr_tcnt[t]` -/
  tcnt : Nat
  /-- `tmr_ocra[t]` -/
  ocra : Nat
  /-- `tmr_ocrb[t]` -/
  ocrb : Nat
  /-- `tmr_ie[t]` -/
  ie : BitVec 3
  /-- `tmr_handler[t][0..2]` -/
  handler : Vector (Option (BitVec 8)) 3
  deriving DecidableEq, Repr

/-- One periodic ticker (10_state.md R47). -/
structure Ticker where
  /-- `tk_attached[t]` -/
  attached : Bool
  /-- `tk_period[t]` -/
  period : BitVec 32
  /-- `tk_handler[t]` -/
  handler : BitVec 8
  /-- `tk_elapsed[t]` -/
  elapsed : BitVec 32
  deriving DecidableEq, Repr

/-- The PWM countdowns, the PWM pin and the servo register (10_state.md R49 to R51). The countdowns are Int32, two's
complement. -/
structure Pwm where
  /-- `pwm_next_rise` -/
  nextRise : BitVec 32
  /-- `pwm_next_fall` -/
  nextFall : BitVec 32
  /-- `pwm_out` -/
  out : Bool
  /-- `pulse_width` -/
  pulseWidth : BitVec 16
  deriving DecidableEq, Repr

/-- The lock controller (10_state.md R52 to R61). `stage` is never 3 and `chg_idx` never 7 (R55, R61), so their types
have no such value (log entry 13). -/
structure Lock where
  /-- `lk_state` -/
  lkState : LockState
  /-- `comb[0..2]` -/
  comb : Vector (BitVec 4) 3
  /-- `dial` -/
  dial : BitVec 4
  /-- `stage` -/
  stage : Fin 3
  /-- `expected` -/
  expected : Dir
  /-- `entered[0..1]` -/
  entered : Vector (BitVec 4) 2
  /-- `vc[0..2]` -/
  vc : Vector (BitVec 8) 3
  /-- `bad_tries` -/
  badTries : BitVec 2
  /-- `prev_bl` -/
  prevBl : Bool
  /-- `prev_br` -/
  prevBr : Bool
  /-- `prev_key` -/
  prevKey : Option (BitVec 4)
  /-- `chg_slot[0..5]` -/
  chgSlot : Vector (BitVec 7) 6
  /-- `chg_idx` -/
  chgIdx : Fin 7
  /-- `chg_tens` -/
  chgTens : Option (BitVec 4)
  deriving DecidableEq, Repr

/-- The LED and the busy state (10_state.md R62 to R64). -/
structure Blink where
  /-- `led` -/
  led : Bool
  /-- `busy_phases` -/
  phases : BitVec 3
  /-- `busy_start` -/
  start : BitVec 32
  /-- `pending_display` -/
  pendingDisplay : Bool
  deriving DecidableEq, Repr

end Sys2Proof.Machine
end

