-- ==== Sys2Proof/Machine/Initial.lean ====
section
/-! DEFINITION. The servo widths and the values each group of State has after either reset (70_reset_and_hazards.md R290,
R291). -/

namespace Sys2Proof.Machine

/-- `SERVO_CENTER_US` (00_scope.md R16). -/
def servoCenterUs : BitVec 16 := 1500#16

/-- `SERVO_CW_US` (00_scope.md R16). -/
def servoCwUs (p : Params) : BitVec 16 :=
  match p.servoCw with
  | .us500 => 500#16
  | .us2500 => 2500#16

/-- `SERVO_CCW_US = 3000 - SERVO_CW_US` (00_scope.md R16). -/
def servoCcwUs (p : Params) : BitVec 16 := 3000#16 - servoCwUs p

/-- `width(pos)` (10_state.md R51). -/
def positionWidth (p : Params) : Position → BitVec 16
  | .center => servoCenterUs
  | .fullCw => servoCwUs p
  | .fullCcw => servoCcwUs p

/-- A counter timer after either reset (70_reset_and_hazards.md R290). -/
def Timer.initial : Timer :=
  { mode := .off, presc := 0, top := 0, tcnt := 0, ocra := 0, ocrb := 0, ie := 0b000#3,
    handler := #v[none, none, none] }

/-- A ticker after either reset (70_reset_and_hazards.md R290). -/
def Ticker.initial : Ticker :=
  { attached := false, period := 0#32, handler := 0#8, elapsed := 0#32 }

/-- The PWM group after either reset (70_reset_and_hazards.md R290). -/
def Pwm.initial (p : Params) : Pwm :=
  { nextRise := 0#32, nextFall := 0#32, out := false, pulseWidth := positionWidth p p.posLocked }

/-- The lock group after either reset, with the given combination (70_reset_and_hazards.md R290, R291). -/
def Lock.initial (comb : Vector (BitVec 4) 3) : Lock :=
  { lkState := .locked, comb := comb, dial := 0#4, stage := 0, expected := .clockwise, entered := #v[0#4, 0#4],
    vc := #v[0#8, 0#8, 0#8], badTries := 0#2, prevBl := false, prevBr := false, prevKey := none,
    chgSlot := #v[0#7, 0#7, 0#7, 0#7, 0#7, 0#7], chgIdx := 0, chgTens := none }

/-- The LED and busy group after either reset (70_reset_and_hazards.md R290). -/
def Blink.initial : Blink :=
  { led := false, phases := 0#3, start := 0#32, pendingDisplay := false }

/-- The unspecified combination after power-on number `k`: one free value per digit (10_state.md R53, R290). -/
def drawnComb (k : Nat) : Vector (BitVec 4) 3 :=
  #v[Config.drawDigit k 0, Config.drawDigit k 1, Config.drawDigit k 2]

end Sys2Proof.Machine
end

