-- ==== Sys2Proof/Machine/State.lean ====
section
/-! DEFINITION. The machine state as plain data: every field of 10_state.md, and the model's own fields for the OPEN
parameters, the free draws, the two input channels and the outputs (INVENTORY.md, State). -/

namespace Sys2Proof.Machine

/-- The whole state. -/
structure State where
  /-- the OPEN parameters: the model's own field, written by no step (00_scope.md R12 to R18; log entry 4) -/
  params : Params
  /-- the index of the next power-on's free digits: the model's own field (10_state.md R53; log entry 6) -/
  powerOns : Nat
  qd : QuadDecoder
  tmr : Vector Timer 2
  tk : Vector Ticker 2
  /-- `us_counter` (10_state.md R48) -/
  usCounter : BitVec 32
  pwm : Pwm
  lock : Lock
  blink : Blink
  /-- the host command channel, head first (30_encoding.md R91): the model's own field (log entry 1) -/
  hostChan : List Word
  /-- the environment event channel, head first (30_encoding.md R91): the model's own field (log entry 1) -/
  eventChan : List Word
  /-- which channel is served at each coming step (20_memory.md R80): the model's own field (log entry 1) -/
  turns : List Channel
  /-- the responses answered so far, oldest first (30_encoding.md R104): the model's own field (log entry 7) -/
  responses : List Response
  /-- the output trace, oldest first (00_scope.md R27): the model's own field (log entry 7) -/
  trace : List OutEvent
  deriving DecidableEq, Repr

/-- Why a step stops with a fault: never. The block raises no exception and no step faults (60_exceptions.md R260, R281),
so the type has no constructor. -/
inductive Fault
  deriving DecidableEq, Repr

/-- Why a step is refused. -/
inductive Refusal where
  /-- An instruction that has no meaning in the model yet; raised by an arm of `exec` alone, safe. Every arm has its
  meaning, so nothing raises it (60_exceptions.md R281: commands and events are total). -/
  | notModelled (mnemonic : String)
  deriving DecidableEq, Repr

/-- The machine right after power-on (70_reset_and_hazards.md R290, R293): the fields of R290, the pins as drawn
(10_state.md R33), nothing delivered on either channel, nothing put out. -/
def State.reset : State :=
  { params := Config.params
    powerOns := 1
    qd := { pins := Config.powerOnPins, state := .unknown, last := .unknown, dir := .stationary }
    tmr := #v[Timer.initial, Timer.initial]
    tk := #v[Ticker.initial, Ticker.initial]
    usCounter := 0#32
    pwm := Pwm.initial Config.params
    lock := Lock.initial (drawnComb 0)
    blink := Blink.initial
    hostChan := []
    eventChan := []
    turns := []
    responses := []
    trace := [] }

end Sys2Proof.Machine
end

