-- ==== Sys2Proof/Machine/Flags.lean ====
section
/-! DEFINITION. The block has no condition codes (10_state.md R67). What it has instead: the derived flag `busy`, the slot
count derived from a timer's mode, and the bit codes of its enumerations (10_state.md R34, R37, R39, R44, R52, R63;
30_encoding.md R104). -/

namespace Sys2Proof.Machine

/-- `busy`: the lock controller is inside a blocking blink (10_state.md R63). -/
def State.busy (s : State) : Bool := s.blink.phases != 0#3

/-- `tmr_nslots[t]`, a function of the mode (10_state.md R44). -/
def Timer.nslots (tm : Timer) : Nat :=
  match tm.mode with
  | .off => 0
  | .normal => 3
  | .ctc => 2

/-- The 3-bit code of a quadrature state (10_state.md R34). -/
def QState.code : QState → BitVec 3
  | .lowLow => 0b000#3
  | .lowHigh => 0b001#3
  | .highLow => 0b010#3
  | .highHigh => 0b011#3
  | .unknown => 0b100#3

/-- The 2-bit code of a direction edge (10_state.md R37). -/
def Dir.code : Dir → BitVec 2
  | .stationary => 0b00#2
  | .clockwise => 0b01#2
  | .counterclockwise => 0b10#2

/-- The 2-bit code of a counter mode (10_state.md R39). -/
def TmrMode.code : TmrMode → BitVec 2
  | .off => 0#2
  | .normal => 1#2
  | .ctc => 2#2

/-- The 2-bit code of a lock state (10_state.md R52). -/
def LockState.code : LockState → BitVec 2
  | .locked => 0#2
  | .unlocked => 1#2
  | .changing => 2#2
  | .alarmed => 3#2

/-- The 2-bit code of a response status (30_encoding.md R104). -/
def Status.code : Status → BitVec 2
  | .ok => 0#2
  | .noSolution => 1#2
  | .fail => 2#2
  | .illegal => 3#2

/-- `stage` at its width of two bits (10_state.md R55). -/
def stageCode (stage : Fin 3) : BitVec 2 := BitVec.ofNat 2 stage.val

/-- `chg_idx` at its width of three bits (10_state.md R61). -/
def chgIdxCode (idx : Fin 7) : BitVec 3 := BitVec.ofNat 3 idx.val

end Sys2Proof.Machine
end

