-- ==== Sys2Proof/Machine/Operands.lean ====
section
/-! DEFINITION. Operand assembly: what the fields of a word stand for in the operations (30_encoding.md R99 to R101,
41_timer.md R140, 40_quadrature.md R121). -/

namespace Sys2Proof.Machine

/-- `valid(t)`: the timer a TID names, none for an invalid id (41_timer.md R140, 00_scope.md R11). -/
def timerIndex (tid : BitVec 8) : Option (Fin 2) :=
  if h : tid.toNat < 2 then some ⟨tid.toNat, h⟩ else none

/-- The slot a SLOT operand names on a timer with `n` usable slots, none at or above the count (41_timer.md R150). -/
def slotIndex (n : Nat) (slot : BitVec 4) : Option (Fin 3) :=
  if h : slot.toNat < n ∧ slot.toNat < 3 then some ⟨slot.toNat, h.2⟩ else none

/-- The assembled keypad operand (30_encoding.md R99). -/
def keyOperand (kv : Bool) (key : BitVec 4) : Option (BitVec 4) :=
  if kv then some key else none

/-- `qstate(code)` (40_quadrature.md R121): `zext_3(code)`; the last case is the UNKNOWN of an invalid code, which no
2-bit code reaches (R127). -/
def qstate (code : BitVec 2) : QState :=
  if code = 0b00#2 then .lowLow
  else if code = 0b01#2 then .lowHigh
  else if code = 0b10#2 then .highLow
  else if code = 0b11#2 then .highHigh
  else .unknown

end Sys2Proof.Machine
end

