-- ==== Sys2Proof/Machine/Ops.lean ====
section
/-! DEFINITION. The named operations the meanings are made of: responding, emitting, the hold, the PWM tick, the dispatch
of a registered handler (what stands in this block where other machines take an interrupt, 60_exceptions.md R272), the
consuming read of the pending edge, and the servo and blink commands. -/

namespace Sys2Proof.Machine

/-- `respond(status, value)` (00_scope.md R27). -/
def State.respond (s : State) (status : Status) (value : Option RespValue) : State :=
  { s with responses := s.responses ++ [{ status := status, value := value }] }

/-- `emit(e)` (00_scope.md R27). -/
def State.emit (s : State) (e : OutEvent) : State :=
  { s with trace := s.trace ++ [e] }

/-- A host command: held, with nothing changed, while `busy`; run otherwise (00_scope.md R27 `hold`, 60_exceptions.md
R270). It never faults and is never refused (R281). -/
def hostCommand (run : State → State) (s : State) : Host.Outcome State Fault Refusal :=
  .next (if s.busy then s else run s)

/-- An environment event: never held (60_exceptions.md R270). -/
def eventStep (run : State → State) (s : State) : Host.Outcome State Fault Refusal :=
  .next (run s)

/-- Writes the record of counter timer `t`. -/
def State.setTimer (s : State) (t : Fin 2) (tm : Timer) : State :=
  { s with tmr := s.tmr.set t.val tm t.isLt }

/-- Writes the record of ticker `t`. -/
def State.setTicker (s : State) (t : Fin 2) (k : Ticker) : State :=
  { s with tk := s.tk.set t.val k t.isLt }

/-- Writes the lock group. -/
def State.setLock (s : State) (l : Lock) : State := { s with lock := l }

/-- `S.pulse_width <- w` (10_state.md R51). -/
def State.setPulseWidth (s : State) (w : BitVec 16) : State :=
  { s with pwm := { s.pwm with pulseWidth := w } }

/-- Both countdowns minus the tick increment, in Int32 (42_pwm_servo.md R181). -/
def Pwm.countDown (p : Params) (w : Pwm) : Pwm :=
  { w with
    nextRise := w.nextRise - BitVec.ofNat 32 p.pwmTickUs
    nextFall := w.nextFall - BitVec.ofNat 32 p.pwmTickUs }

/-- The rising test (42_pwm_servo.md R181 to R183). -/
def Pwm.risingTest (p : Params) (w : Pwm) : Pwm :=
  if w.nextRise.toInt ≤ 0 then
    { w with
      out := true
      nextRise := BitVec.ofNat 32 p.pwmPeriodUs
      nextFall := w.pulseWidth.setWidth 32 }
  else w

/-- The falling test (42_pwm_servo.md R181 to R183). -/
def Pwm.fallingTest (w : Pwm) : Pwm :=
  if w.nextFall.toInt ≤ 0 then { w with out := false } else w

/-- `pwm_tick()`: decrement, then the rising test, then the falling test (42_pwm_servo.md R181, R182). -/
def Pwm.tick (p : Params) (w : Pwm) : Pwm :=
  ((w.countDown p).risingTest p).fallingTest

/-- `pwm_tick()` on the state (42_pwm_servo.md R181). -/
def State.pwmTick (s : State) : State := { s with pwm := s.pwm.tick s.params }

/-- Runs a registered handler: id 0 is the PWM tick, every other id is emitted as a CALLBACK (00_scope.md R20,
41_timer.md R160, R164, 60_exceptions.md R266). -/
def State.runHandler (s : State) (source : Source) (h : BitVec 8) : State :=
  if h = 0#8 then s.pwmTick else s.emit (.callback source h)

/-- `dispatch(t, slot)` (41_timer.md R160). The registry holds a handler wherever the slot is enabled (10_state.md R46);
in a state where it does not, nothing is dispatched (log entry 12). -/
def State.dispatch (s : State) (t : Fin 2) (slot : Fin 3) : State :=
  match s.tmr[t.val].handler[slot.val] with
  | some h => s.runHandler (.timer t slot) h
  | none => s

/-- `dispatch_ticker(t)` (41_timer.md R164). -/
def State.dispatchTicker (s : State) (t : Fin 2) : State :=
  s.runHandler (.ticker t) s.tk[t.val].handler

/-- The clearing half of the consuming read of the pending edge (40_quadrature.md R122, 43_lock_fsm.md R204). -/
def State.clearEdge (s : State) : State := { s with qd := { s.qd with dir := .stationary } }

/-- `display_record()` (43_lock_fsm.md R236). -/
def Lock.displayRecord (l : Lock) : DisplayRecord :=
  { lkState := l.lkState, dial := l.dial, stage := l.stage, badTries := l.badTries, chgIdx := l.chgIdx }

/-- `emit(DISPLAY(display_record()))` (43_lock_fsm.md R236). -/
def State.emitDisplay (s : State) : State := s.emit (.display s.lock.displayRecord)

/-- `start_blink(n)` (43_lock_fsm.md R237). -/
def State.startBlink (s : State) (n : BitVec 3) : State :=
  { s with blink := { s.blink with phases := n, start := s.usCounter, led := true } }

/-- The end of one blink phase (43_lock_fsm.md R239). -/
def State.endPhase (s : State) : State :=
  let left := s.blink.phases - 1#3
  if left = 0#3 then
    let s1 : State := { s with
      blink := { led := false, phases := left, start := s.usCounter, pendingDisplay := false } }
    if s.blink.pendingDisplay then s1.emitDisplay else s1
  else
    { s with
      blink := { s.blink with phases := left, start := s.usCounter, led := left.toNat % 2 == 0 } }

/-- `blink_advance()`: elapsed time modulo 2^32 (43_lock_fsm.md R239). -/
def State.blinkAdvance (s : State) : State :=
  if s.busy && decide (s.params.blinkPhaseUs ≤ (s.usCounter - s.blink.start).toNat) then s.endPhase else s

/-- The assignments both resets make, with the given combination (70_reset_and_hazards.md R290, R291). The pins, the
channels and the outputs are not written (R290, R292). -/
def State.resetFields (s : State) (comb : Vector (BitVec 4) 3) : State :=
  { s with
    qd := { s.qd with state := .unknown, last := .unknown, dir := .stationary }
    tmr := #v[Timer.initial, Timer.initial]
    tk := #v[Ticker.initial, Ticker.initial]
    usCounter := 0#32
    pwm := Pwm.initial s.params
    lock := Lock.initial comb
    blink := Blink.initial }

end Sys2Proof.Machine
end

