-- ==== Sys2Proof/Machine/Lock.lean ====
section
/-! DEFINITION. The lock state machine: LOCK.CTRL, LOCK.RSTCOMB, LOCK.CHECK (43_lock_fsm.md). -/

namespace Sys2Proof.Machine

/-! ## Combination entry (R202, R208 to R220) -/

/-- `clear_progress()` (43_lock_fsm.md R202). -/
def Lock.clearProgress (l : Lock) : Lock :=
  { l with
    dial := 0#4
    stage := 0
    expected := .clockwise
    entered := #v[0#4, 0#4]
    vc := #v[0#8, 0#8, 0#8] }

/-- `opposite(d)` (43_lock_fsm.md R208). STATIONARY has no opposite and is never passed (10_state.md R56; log entry 18). -/
def opposite : Dir → Dir
  | .clockwise => .counterclockwise
  | .counterclockwise => .clockwise
  | .stationary => .stationary

/-- The dial after one step in direction `d`, modulo 16 (43_lock_fsm.md R211). -/
def turned (d : Dir) (dial : BitVec 4) : BitVec 4 :=
  if d = .clockwise then dial + 1#4 else dial - 1#4

/-- One more visible pass, saturating at 255 (43_lock_fsm.md R211, R213). -/
def satIncr (n : BitVec 8) : BitVec 8 := if n = 255#8 then 255#8 else n + 1#8

/-- `move(d)` (43_lock_fsm.md R211). -/
def Lock.move (l : Lock) (d : Dir) : Lock :=
  let dial := turned d l.dial
  { l with
    dial := dial
    vc := if dial = l.comb[l.stage.val] then l.vc.set l.stage.val (satIncr l.vc[l.stage.val]) l.stage.isLt else l.vc }

/-- `advance_stage()`, for `stage < 2` (43_lock_fsm.md R214). -/
def Lock.advanceStage (l : Lock) (h : l.stage.val < 2) : Lock :=
  { l with
    entered := l.entered.set l.stage.val l.dial h
    stage := ⟨l.stage.val + 1, by omega⟩
    expected := opposite l.expected }

/-- The edge half of `locked_step` (43_lock_fsm.md R210, R216, R217). -/
def Lock.takeEdge (l : Lock) (e : Dir) : Lock :=
  if e = .stationary then l
  else if e = l.expected then l.move e
  else if h : l.stage.val < 2 then l.advanceStage h
  else l.clearProgress

/-- `check_combination()` (43_lock_fsm.md R220). -/
def Lock.checkCombination (l : Lock) : Bool :=
  l.entered[0] == l.comb[0] && l.entered[1] == l.comb[1] && l.dial == l.comb[2] &&
    decide (3 ≤ l.vc[0].toNat) && l.vc[1] == 2#8 && l.vc[2] == 1#8

/-! ## Transitions (R203, R218 to R234) -/

/-- `enter_unlocked_from_locked()` (43_lock_fsm.md R203, R221). -/
def State.enterUnlocked (s : State) : State :=
  (s.setLock { s.lock with lkState := .unlocked }).setPulseWidth (positionWidth s.params s.params.posUnlocked)

/-- `enter_locked()` (43_lock_fsm.md R203). -/
def State.enterLocked (s : State) : State :=
  (s.setLock { s.lock with lkState := .locked }).setPulseWidth (positionWidth s.params s.params.posLocked)

/-- `evaluate()` (43_lock_fsm.md R218, R221 to R223). -/
def State.evaluate (s : State) : State :=
  if s.lock.checkCombination then s.enterUnlocked
  else
    let l : Lock := { s.lock with badTries := s.lock.badTries + 1#2 }
    if l.badTries = 3#2 then s.setLock { l with lkState := .alarmed }
    else (s.setLock l.clearProgress).startBlink 4#3

/-- `locked_step(e, pl)`: the edge first, then the button (43_lock_fsm.md R210, R218, R219). -/
def State.lockedStep (s : State) (e : Dir) (pl : Bool) : State :=
  let s1 := s.setLock (s.lock.takeEdge e)
  if pl && s1.lock.stage.val == 2 then s1.evaluate else s1

/-- `relock()` (43_lock_fsm.md R225). -/
def State.relock (s : State) : State :=
  (s.setLock { s.lock.clearProgress with badTries := 0#2 }).enterLocked

/-- Staging cleared (43_lock_fsm.md R226, R233). -/
def Lock.clearStaging (l : Lock) : Lock :=
  { l with chgSlot := #v[0#7, 0#7, 0#7, 0#7, 0#7, 0#7], chgIdx := 0, chgTens := none }

/-- `enter_changing()` (43_lock_fsm.md R226). -/
def Lock.enterChanging (l : Lock) : Lock := { l.clearStaging with lkState := .changing }

/-- `unlocked_step(pboth, pr, SW)`: the relock wins (43_lock_fsm.md R224, R227). -/
def State.unlockedStep (s : State) (pboth pr sw : Bool) : State :=
  if pboth then s.relock
  else if sw && pr then s.setLock s.lock.enterChanging
  else s

/-- `commit_valid()` (43_lock_fsm.md R230). -/
def Lock.commitValid (l : Lock) : Bool :=
  l.chgIdx.val == 6 &&
    (l.chgSlot[0] == l.chgSlot[3] && l.chgSlot[1] == l.chgSlot[4] && l.chgSlot[2] == l.chgSlot[5]) &&
    l.chgSlot.toList.all fun v => decide (v.toNat ≤ 15)

/-- The stored combination overwritten by the first three slots (43_lock_fsm.md R233). -/
def Lock.stagedComb (l : Lock) : Vector (BitVec 4) 3 :=
  #v[l.chgSlot[0].setWidth 4, l.chgSlot[1].setWidth 4, l.chgSlot[2].setWidth 4]

/-- `commit()` (43_lock_fsm.md R233). -/
def Lock.commit (l : Lock) : Lock :=
  let l1 : Lock := if l.commitValid then { l with comb := l.stagedComb } else l
  { l1.clearStaging with lkState := .unlocked }

/-- `key_stroke(k)` (43_lock_fsm.md R232). -/
def Lock.keyStroke (l : Lock) (k : BitVec 4) : Lock :=
  if 9 < k.toNat then l
  else if h : l.chgIdx.val < 6 then
    match l.chgTens with
    | none => { l with chgTens := some k }
    | some tens =>
      { l with
        chgSlot := l.chgSlot.set l.chgIdx.val (BitVec.ofNat 7 (10 * tens.toNat + k.toNat)) h
        chgIdx := ⟨l.chgIdx.val + 1, by omega⟩
        chgTens := none }
  else l

/-- `changing_step(SW, rel)`: the commit wins over a stroke (43_lock_fsm.md R228, R229). -/
def Lock.changingStep (l : Lock) (sw : Bool) (rel : Option (BitVec 4)) : Lock :=
  if !sw then l.commit
  else
    match rel with
    | some k => l.keyStroke k
    | none => l

/-- `alarmed_step()` (43_lock_fsm.md R234). -/
def State.alarmedStep (s : State) : State := s.startBlink 2#3

/-! ## LOCK.CTRL (R200 to R207, R231, R236) -/

/-- The released key: down at the previous invocation, none now (43_lock_fsm.md R200, R231). -/
def releasedKey (prev now : Option (BitVec 4)) : Option (BitVec 4) :=
  match now with
  | some _ => none
  | none => prev

/-- The latches take this invocation's inputs (43_lock_fsm.md R207). -/
def Lock.latch (l : Lock) (bl br : Bool) (key : Option (BitVec 4)) : Lock :=
  { l with prevBl := bl, prevBr := br, prevKey := key }

/-- The procedure of the current lock state, on the state with the latches written. The edge is consumed in LOCKED,
UNLOCKED and CHANGING, and not in ALARMED (43_lock_fsm.md R200, R204). -/
def State.lockProcedure (s : State) (pl pr pboth sw : Bool) (rel : Option (BitVec 4)) : State :=
  match s.lock.lkState with
  | .alarmed => s.alarmedStep
  | .locked => s.clearEdge.lockedStep s.qd.dir pl
  | .unlocked => s.clearEdge.unlockedStep pboth pr sw
  | .changing => s.clearEdge.setLock (s.lock.changingStep sw rel)

/-- The end of an invocation: the display record now, or at the end of the blink it began (43_lock_fsm.md R200, R236). -/
def State.finishInvocation (s : State) : State :=
  if s.busy then { s with blink := { s.blink with pendingDisplay := true } } else s.emitDisplay

/-- What LOCK.CTRL does when it is not held (43_lock_fsm.md R200). -/
def lockCtrlRun (bl br sw : Bool) (key : Option (BitVec 4)) (s : State) : State :=
  let l := s.lock
  let pl := bl && !l.prevBl
  let pr := br && !l.prevBr
  let pboth := bl && br && !(l.prevBl && l.prevBr)
  let rel := releasedKey l.prevKey key
  (((s.setLock (l.latch bl br key)).lockProcedure pl pr pboth sw rel).finishInvocation).respond .ok none

/-- LOCK.CTRL (43_lock_fsm.md R200). -/
def execLockCtrl (bl br sw kv : Bool) (key : BitVec 4) (s : State) : Host.Outcome State Fault Refusal :=
  hostCommand (lockCtrlRun bl br sw (keyOperand kv key)) s

/-! ## The combination commands (R244, R245) -/

/-- The default combination (43_lock_fsm.md R244, 00_scope.md R19). -/
def defaultComb : Vector (BitVec 4) 3 := #v[5#4, 10#4, 15#4]

/-- LOCK.RSTCOMB (43_lock_fsm.md R244). -/
def execLockRstcomb (s : State) : Host.Outcome State Fault Refusal :=
  hostCommand (fun s => (s.setLock { s.lock with comb := defaultComb }).respond .ok none) s

/-- LOCK.CHECK (43_lock_fsm.md R245). -/
def execLockCheck (s : State) : Host.Outcome State Fault Refusal :=
  hostCommand (fun s => s.respond .ok (some (.one (BitVec.ofBool s.lock.checkCombination)))) s

end Sys2Proof.Machine
end

