-- ==== Sys2Proof/Machine/Quadrature.lean ====
section
/-! DEFINITION. The quadrature decoder: QD.SAMPLE, QD.GETDIR, EV.QDEDGE (40_quadrature.md). -/

namespace Sys2Proof.Machine

/-- `match(l, p, n)` (40_quadrature.md R123). -/
def stepPattern (l p n : QState) : Option Dir :=
  if l = .highHigh ∧ p = .highLow ∧ n = .lowLow then some .clockwise
  else if l = .highHigh ∧ p = .lowHigh ∧ n = .lowLow then some .counterclockwise
  else none

/-- What one sample does to the decoder: pins, edge (R126), history (R125) (40_quadrature.md R124). -/
def QuadDecoder.sample (q : QuadDecoder) (code : BitVec 2) : QuadDecoder :=
  { pins := code
    dir := (stepPattern q.last q.state (qstate code)).getD q.dir
    last := q.state
    state := qstate code }

/-- QD.SAMPLE (40_quadrature.md R120). -/
def execQdSample (s : State) : Host.Outcome State Fault Refusal :=
  hostCommand (fun s => s.respond .ok (some (.two s.qd.pins))) s

/-- QD.GETDIR (40_quadrature.md R122). -/
def execQdGetdir (s : State) : Host.Outcome State Fault Refusal :=
  hostCommand (fun s => s.clearEdge.respond .ok (some (.two s.qd.dir.code))) s

/-- EV.QDEDGE (40_quadrature.md R124). -/
def execEvQdedge (code : BitVec 2) (s : State) : Host.Outcome State Fault Refusal :=
  eventStep (fun s => { s with qd := s.qd.sample code }) s

end Sys2Proof.Machine
end

