-- ==== Sys2Proof/Machine/Reset.lean ====
section
/-! DEFINITION. The reset events: EV.PORST, EV.SOFTRST (70_reset_and_hazards.md R290 to R293). -/

namespace Sys2Proof.Machine

/-- EV.PORST: the combination takes fresh free digits (70_reset_and_hazards.md R290; log entry 6). -/
def execEvPorst (s : State) : Host.Outcome State Fault Refusal :=
  eventStep (fun s => { s.resetFields (drawnComb s.powerOns) with powerOns := s.powerOns + 1 }) s

/-- EV.SOFTRST: the combination is retained (70_reset_and_hazards.md R291). -/
def execEvSoftrst (s : State) : Host.Outcome State Fault Refusal :=
  eventStep (fun s => s.resetFields s.lock.comb) s

end Sys2Proof.Machine
end

