-- ==== Sys2Proof/Machine/Servo.lean ====
section
/-! DEFINITION. The servo commands: SRV.CENTER, SRV.CW, SRV.CCW (42_pwm_servo.md R188 to R191). -/

namespace Sys2Proof.Machine

/-- SRV.CENTER (42_pwm_servo.md R188). -/
def execSrvCenter (s : State) : Host.Outcome State Fault Refusal :=
  hostCommand (fun s => (s.setPulseWidth servoCenterUs).respond .ok none) s

/-- SRV.CW (42_pwm_servo.md R189). -/
def execSrvCw (s : State) : Host.Outcome State Fault Refusal :=
  hostCommand (fun s => (s.setPulseWidth (servoCwUs s.params)).respond .ok none) s

/-- SRV.CCW (42_pwm_servo.md R190). -/
def execSrvCcw (s : State) : Host.Outcome State Fault Refusal :=
  hostCommand (fun s => (s.setPulseWidth (servoCcwUs s.params)).respond .ok none) s

end Sys2Proof.Machine
end

