-- ==== Sys2Proof/Machine/Timer.lean ====
section
/-! DEFINITION. The timer driver: TMR.CONFIG, TMR.REGISR, TMR.RESET, TMR.REGPER, TMR.RESETPER, EV.TMRTICK, EV.USTICK
(41_timer.md). -/

namespace Sys2Proof.Machine

/-! ## The prescaler search (R141 to R144) -/

/-- A prescaler and a count, with the error of their period in units of `1 / F_CLK_HZ` microseconds: every candidate's
period and the request have the denominator `F_CLK_HZ` in common, so comparing these integers compares the exact
rational errors of 41_timer.md R142 (log entry 11). -/
structure Candidate where
  presc : Nat
  count : Nat
  err : Nat
  deriving DecidableEq, Repr

/-- The numerator of `period(p, c)` over `F_CLK_HZ` (41_timer.md R141). -/
def periodNum (p c : Nat) : Nat := c * p * 1000000

/-- `floor(x)`, then `ceil(x)` if it differs, for `x = P * F_CLK_HZ / (p * 1000000)` (41_timer.md R142). -/
def countsFor (fClk period p : Nat) : List Nat :=
  let num := period * fClk
  let den := p * 1000000
  if num % den = 0 then [num / den] else [num / den, num / den + 1]

/-- The candidates of one prescaler that are not discarded (41_timer.md R142, R144). -/
def candidatesFor (fClk width period p : Nat) : List Candidate :=
  ((countsFor fClk period p).filter fun c => decide (1 ≤ c ∧ c ≤ 2 ^ width)).map fun c =>
    { presc := p, count := c, err := ((periodNum p c : Int) - (period * fClk : Nat)).natAbs }

/-- All candidates in the order of 41_timer.md R143. -/
def candidates (prescalers : List Nat) (fClk width period : Nat) : List Candidate :=
  prescalers.flatMap (candidatesFor fClk width period)

/-- A candidate replaces the best so far only if its error is strictly smaller (41_timer.md R143). -/
def keepBetter (best : Option Candidate) (c : Candidate) : Option Candidate :=
  match best with
  | none => some c
  | some b => if c.err < b.err then some c else some b

/-- The search loop of TMR.CONFIG (41_timer.md R142). -/
def searchBest (prescalers : List Nat) (fClk width period : Nat) : Option Candidate :=
  (candidates prescalers fClk width period).foldl keepBetter none

/-! ## TMR.CONFIG (R142, R145 to R148) -/

/-- The mode the winning count selects (41_timer.md R145). -/
def modeFor (width c : Nat) : TmrMode := if c = 2 ^ width then .normal else .ctc

/-- Compare-A (41_timer.md R146). -/
def compareA (width c : Nat) : Nat := if c = 2 ^ width then 2 * 2 ^ width / 3 else c

/-- Compare-B (41_timer.md R146). -/
def compareB (width c : Nat) : Nat := if c = 2 ^ width then compareA width c / 2 else c / 2

/-- Clears the enables and the registrations of the slots `n .. 2` (41_timer.md R147). -/
def Timer.dropSlots (tm : Timer) (n : Nat) : Timer :=
  { tm with
    ie := tm.ie &&& BitVec.ofNat 3 (2 ^ n - 1)
    handler := tm.handler.mapIdx fun i h => if n ≤ i then none else h }

/-- `configure_apply(t, p, c)` on the timer's record (41_timer.md R147). -/
def Timer.configured (tm : Timer) (width p c : Nat) : Timer :=
  let tm1 : Timer := { tm with
    mode := modeFor width c
    presc := p
    top := c
    ocra := compareA width c
    ocrb := compareB width c
    tcnt := 0 }
  tm1.dropSlots tm1.nslots

/-- What TMR.CONFIG does when it is not held (41_timer.md R142). -/
def tmrConfigRun (tid : BitVec 8) (period : BitVec 32) (s : State) : State :=
  match timerIndex tid with
  | none => s.respond .noSolution none
  | some t =>
    if period.toNat < 1 then s.respond .noSolution none
    else
      match searchBest s.params.prescalers[t.val] s.params.fClkHz s.params.timerWidth[t.val] period.toNat with
      | none => s.respond .noSolution none
      | some c =>
        (s.setTimer t (s.tmr[t.val].configured s.params.timerWidth[t.val] c.presc c.count)).respond .ok
          (some (.period (periodNum c.presc c.count) s.params.fClkHz))

/-- TMR.CONFIG (41_timer.md R142). -/
def execTmrConfig (tid : BitVec 8) (period : BitVec 32) (s : State) : Host.Outcome State Fault Refusal :=
  hostCommand (tmrConfigRun tid period) s

/-! ## Registration and reset (R150 to R155) -/

/-- Registers handler `hid` to `slot` and enables it (41_timer.md R150). -/
def Timer.register (tm : Timer) (slot : Fin 3) (hid : BitVec 8) : Timer :=
  { tm with
    handler := tm.handler.set slot.val (some hid) slot.isLt
    ie := tm.ie ||| BitVec.twoPow 3 slot.val }

/-- What TMR.REGISR does when it is not held (41_timer.md R150). -/
def tmrRegisrRun (tid : BitVec 8) (slot : BitVec 4) (hid : BitVec 8) (s : State) : State :=
  match timerIndex tid with
  | none => s.respond .fail (some (.one 0#1))
  | some t =>
    match slotIndex s.tmr[t.val].nslots slot with
    | none => s.respond .fail (some (.one 0#1))
    | some k => (s.setTimer t (s.tmr[t.val].register k hid)).respond .ok (some (.one 1#1))

/-- TMR.REGISR (41_timer.md R150). -/
def execTmrRegisr (tid : BitVec 8) (slot : BitVec 4) (hid : BitVec 8) (s : State) :
    Host.Outcome State Fault Refusal :=
  hostCommand (tmrRegisrRun tid slot hid) s

/-- What TMR.RESET does when it is not held (41_timer.md R152). -/
def tmrResetRun (tid : BitVec 8) (s : State) : State :=
  match timerIndex tid with
  | none => s.respond .fail none
  | some t => (s.setTimer t { s.tmr[t.val] with tcnt := 0 }).respond .ok none

/-- TMR.RESET (41_timer.md R152). -/
def execTmrReset (tid : BitVec 8) (s : State) : Host.Outcome State Fault Refusal :=
  hostCommand (tmrResetRun tid) s

/-- What TMR.REGPER does when it is not held (41_timer.md R153). -/
def tmrRegperRun (tid hid : BitVec 8) (period : BitVec 32) (s : State) : State :=
  match timerIndex tid with
  | none => s.respond .fail (some (.one 0#1))
  | some t =>
    if period.toNat < 1 then s.respond .fail (some (.one 0#1))
    else
      (s.setTicker t { attached := true, period := period, handler := hid, elapsed := 0#32 }).respond .ok
        (some (.one 1#1))

/-- TMR.REGPER (41_timer.md R153). -/
def execTmrRegper (tid hid : BitVec 8) (period : BitVec 32) (s : State) : Host.Outcome State Fault Refusal :=
  hostCommand (tmrRegperRun tid hid period) s

/-- The ticker's phase restarted, if it is attached (41_timer.md R155). -/
def Ticker.restarted (k : Ticker) : Ticker :=
  if k.attached then { k with elapsed := 0#32 } else k

/-- What TMR.RESETPER does when it is not held (41_timer.md R155). -/
def tmrResetperRun (tid : BitVec 8) (s : State) : State :=
  match timerIndex tid with
  | none => s.respond .fail none
  | some t => (s.setTicker t s.tk[t.val].restarted).respond .ok none

/-- TMR.RESETPER (41_timer.md R155). -/
def execTmrResetper (tid : BitVec 8) (s : State) : Host.Outcome State Fault Refusal :=
  hostCommand (tmrResetperRun tid) s

/-! ## EV.TMRTICK (R157 to R162) -/

/-- `tmr_tcnt[t]` after a tick; `width` is `TIMER_WIDTH[t]` (41_timer.md R157 to R159, R162). -/
def Timer.nextCount (tm : Timer) (width : Nat) : Nat :=
  match tm.mode with
  | .off => tm.tcnt
  | .ctc => if tm.tcnt + 1 = tm.ocra then 0 else if tm.tcnt + 1 = 2 ^ width then 0 else tm.tcnt + 1
  | .normal => if tm.tcnt + 1 = 2 ^ width then 0 else tm.tcnt + 1

/-- The slots a tick fires, in ascending order (41_timer.md R149, R157, R161). -/
def Timer.fired (tm : Timer) (width : Nat) : List (Fin 3) :=
  match tm.mode with
  | .off => []
  | .ctc =>
    (if tm.tcnt + 1 = tm.ocra then [0] else []) ++ (if tm.tcnt + 1 = tm.ocrb then [1] else [])
  | .normal =>
    (if tm.tcnt + 1 = 2 ^ width then [0] else []) ++ (if tm.tcnt + 1 = tm.ocra then [1] else []) ++
      (if tm.tcnt + 1 = tm.ocrb then [2] else [])

/-- A fired slot runs its handler if its enable bit is set (41_timer.md R157). -/
def State.fireSlot (t : Fin 2) (s : State) (slot : Fin 3) : State :=
  if s.tmr[t.val].ie.getLsbD slot.val then s.dispatch t slot else s

/-- What EV.TMRTICK does (41_timer.md R157, R162). -/
def evTmrtickRun (tid : BitVec 8) (s : State) : State :=
  match timerIndex tid with
  | none => s
  | some t =>
    let tm := s.tmr[t.val]
    let width := s.params.timerWidth[t.val]
    (tm.fired width).foldl (State.fireSlot t) (s.setTimer t { tm with tcnt := tm.nextCount width })

/-- EV.TMRTICK (41_timer.md R157). -/
def execEvTmrtick (tid : BitVec 8) (s : State) : Host.Outcome State Fault Refusal :=
  eventStep (evTmrtickRun tid) s

/-! ## EV.USTICK (R163, R164) -/

/-- One microsecond of ticker `t` (41_timer.md R163). -/
def State.tickTicker (s : State) (t : Fin 2) : State :=
  let k := s.tk[t.val]
  if k.attached then
    if k.period.toNat ≤ (k.elapsed + 1#32).toNat then
      (s.setTicker t { k with elapsed := 0#32 }).dispatchTicker t
    else s.setTicker t { k with elapsed := k.elapsed + 1#32 }
  else s

/-- What EV.USTICK does: the counter, ticker 0, ticker 1, the blink (41_timer.md R163, 60_exceptions.md R271). -/
def evUstickRun (s : State) : State :=
  let s1 : State := { s with usCounter := s.usCounter + 1#32 }
  ((s1.tickTicker 0).tickTicker 1).blinkAdvance

/-- EV.USTICK (41_timer.md R163). -/
def execEvUstick (s : State) : Host.Outcome State Fault Refusal :=
  eventStep evUstickRun s

end Sys2Proof.Machine
end

