-- ==== Sys2Proof/Machine/Dispatch.lean ====
section
/-! DEFINITION. One arm per instruction (30_encoding.md R102). -/

namespace Sys2Proof.Machine

def exec (i : Instr) (s : State) : Host.Outcome State Fault Refusal :=
  match i with
  | .qdSample => Sys2Proof.Machine.execQdSample s
  | .qdGetdir => Sys2Proof.Machine.execQdGetdir s
  | .tmrConfig tid period => Sys2Proof.Machine.execTmrConfig tid period s
  | .tmrRegisr tid slot hid => Sys2Proof.Machine.execTmrRegisr tid slot hid s
  | .tmrReset tid => Sys2Proof.Machine.execTmrReset tid s
  | .tmrRegper tid hid period => Sys2Proof.Machine.execTmrRegper tid hid period s
  | .tmrResetper tid => Sys2Proof.Machine.execTmrResetper tid s
  | .srvCenter => Sys2Proof.Machine.execSrvCenter s
  | .srvCw => Sys2Proof.Machine.execSrvCw s
  | .srvCcw => Sys2Proof.Machine.execSrvCcw s
  | .lockCtrl bl br sw kv key => Sys2Proof.Machine.execLockCtrl bl br sw kv key s
  | .lockRstcomb => Sys2Proof.Machine.execLockRstcomb s
  | .lockCheck => Sys2Proof.Machine.execLockCheck s
  | .evQdedge code => Sys2Proof.Machine.execEvQdedge code s
  | .evTmrtick tid => Sys2Proof.Machine.execEvTmrtick tid s
  | .evUstick => Sys2Proof.Machine.execEvUstick s
  | .evPorst => Sys2Proof.Machine.execEvPorst s
  | .evSoftrst => Sys2Proof.Machine.execEvSoftrst s

end Sys2Proof.Machine
end

