-- ==== Sys2Proof/WellFormed.lean ====
section
/-! DEFINITION. Which terms of `Instr` are legal operations. The operands have their encoded widths as types, and every
value of TID, SLOT, HID, PERIOD and CODE is well-formed (30_encoding.md R101), so one check is left: the LK format's
KEY must be zero when KV = 0 (30_encoding.md R99, R103). -/

namespace Sys2Proof

/-- 30_encoding.md R103: an LK word with `KV = 0` and `KEY != 0` is no legal word. -/
def keyLegal (kv : Bool) (key : BitVec 4) : Bool :=
  kv || key == 0#4

/-- The legality of an instruction, constructor by constructor (30_encoding.md R101, R103). -/
def Instr.wellFormed : Instr → Bool
  | .qdSample => true
  | .qdGetdir => true
  | .tmrConfig _ _ => true
  | .tmrRegisr _ _ _ => true
  | .tmrReset _ => true
  | .tmrRegper _ _ _ => true
  | .tmrResetper _ => true
  | .srvCenter => true
  | .srvCw => true
  | .srvCcw => true
  | .lockCtrl _ _ _ kv key => keyLegal kv key
  | .lockRstcomb => true
  | .lockCheck => true
  | .evQdedge _ => true
  | .evTmrtick _ => true
  | .evUstick => true
  | .evPorst => true
  | .evSoftrst => true

end Sys2Proof
end

