-- ==== Sys2Proof/Decode.lean ====
section
/-! DEFINITION. The decoder (30_encoding.md R90 to R105), total on any word list, after it the encoder, the byte transport
of 20_memory.md R73 and the assembler spelling of R106. -/

namespace Sys2Proof

/-- The formats of 30_encoding.md R94 to R100. -/
inductive Format where
  | n
  | t
  | tp
  | tsh
  | thp
  | lk
  | qe
  deriving DecidableEq, Repr

/-- Why a word is illegal (30_encoding.md R103). -/
inductive Reject where
  /-- the opcode is assigned to no row of R102 -/
  | unassignedOpcode
  /-- a reserved field of the format is not zero -/
  | reservedField
  /-- an LK word with `KV = 0` and `KEY != 0` -/
  | keyWithoutKv
  deriving DecidableEq, Repr

/-- What the head of a channel decodes to (30_encoding.md R105). `len` is how many words are consumed. -/
inductive Decoded where
  | op (i : Instr) (len : Nat)
  | illegal (ch : Channel) (why : Reject) (len : Nat)
  /-- no word, or the operand word of a two-word opcode is not there yet (20_memory.md R74; log entry 2) -/
  | incomplete
  deriving DecidableEq, Repr

/-! Fields of the first word (30_encoding.md R94 to R100). -/

def opcField (w0 : Word) : BitVec 8 := w0.extractLsb' 24 8
def tidField (w0 : Word) : BitVec 8 := w0.extractLsb' 16 8
def slotField (w0 : Word) : BitVec 4 := w0.extractLsb' 12 4
def hidField (w0 : Word) : BitVec 8 := w0.extractLsb' 0 8
def blField (w0 : Word) : Bool := w0.getLsbD 7
def brField (w0 : Word) : Bool := w0.getLsbD 6
def swField (w0 : Word) : Bool := w0.getLsbD 5
def kvField (w0 : Word) : Bool := w0.getLsbD 4
def keyField (w0 : Word) : BitVec 4 := w0.extractLsb' 0 4
def codeField (w0 : Word) : BitVec 2 := w0.extractLsb' 0 2

/-- The reserved bits of each format (30_encoding.md R94 to R100). -/
def reservedMask : Format → Word
  | .n => 0x00FFFFFF#32
  | .t => 0x0000FFFF#32
  | .tp => 0x0000FFFF#32
  | .tsh => 0x00000F00#32
  | .thp => 0x0000FF00#32
  | .lk => 0x00FFFF00#32
  | .qe => 0x00FFFFFC#32

/-- How many words a format has (30_encoding.md R93). -/
def formatWords : Format → Nat
  | .n => 1
  | .t => 1
  | .tp => 2
  | .tsh => 1
  | .thp => 2
  | .lk => 1
  | .qe => 1

/-- The opcode map (30_encoding.md R102): the format of an assigned opcode, and the operation its words `w0`, `w1` stand
for, every field unsigned (R101). -/
def opcodeRow (opc : BitVec 8) : Option (Format × (Word → Word → Instr)) :=
  match opc.toNat with
  | 0x01 => some (.n, fun _ _ => .qdSample)
  | 0x02 => some (.n, fun _ _ => .qdGetdir)
  | 0x10 => some (.tp, fun w0 w1 => .tmrConfig (tidField w0) w1)
  | 0x11 => some (.tsh, fun w0 _ => .tmrRegisr (tidField w0) (slotField w0) (hidField w0))
  | 0x12 => some (.t, fun w0 _ => .tmrReset (tidField w0))
  | 0x13 => some (.thp, fun w0 w1 => .tmrRegper (tidField w0) (hidField w0) w1)
  | 0x14 => some (.t, fun w0 _ => .tmrResetper (tidField w0))
  | 0x20 => some (.n, fun _ _ => .srvCenter)
  | 0x21 => some (.n, fun _ _ => .srvCw)
  | 0x22 => some (.n, fun _ _ => .srvCcw)
  | 0x30 => some (.lk, fun w0 _ => .lockCtrl (blField w0) (brField w0) (swField w0) (kvField w0) (keyField w0))
  | 0x31 => some (.n, fun _ _ => .lockRstcomb)
  | 0x32 => some (.n, fun _ _ => .lockCheck)
  | 0x80 => some (.qe, fun w0 _ => .evQdedge (codeField w0))
  | 0x81 => some (.t, fun w0 _ => .evTmrtick (tidField w0))
  | 0x82 => some (.n, fun _ _ => .evUstick)
  | 0x8E => some (.n, fun _ _ => .evPorst)
  | 0x8F => some (.n, fun _ _ => .evSoftrst)
  | _ => none

/-- `channel(OPC)` of 30_encoding.md R105. -/
def channelOf (opc : BitVec 8) : Channel :=
  if opc.toNat < 0x80 then .host else .event

/-- The length in words, from the opcode alone (30_encoding.md R93). -/
def wordCount (opc : BitVec 8) : Nat :=
  match opcodeRow opc with
  | some (fmt, _) => formatWords fmt
  | none => 1

/-- The operand word of a format: the next word of the channel for a two-word format, none needed (zero) otherwise. -/
def operandWord (fmt : Format) (rest : List Word) : Option Word :=
  if formatWords fmt = 2 then rest.head? else some 0#32

/-- The decoding procedure of 30_encoding.md R105, on the words of a channel, head first. A two-word opcode with a bad
reserved field consumes both words (R105, vector E7; log entry 9). -/
def decode (ws : List Word) : Decoded :=
  match ws with
  | [] => .incomplete
  | w0 :: rest =>
    match opcodeRow (opcField w0) with
    | none => .illegal (channelOf (opcField w0)) .unassignedOpcode 1
    | some (fmt, build) =>
      match operandWord fmt rest with
      | none => .incomplete
      | some w1 =>
        if w0 &&& reservedMask fmt ≠ 0#32 then
          .illegal (channelOf (opcField w0)) .reservedField (formatWords fmt)
        else if fmt = .lk ∧ keyLegal (kvField w0) (keyField w0) = false then
          .illegal .host .keyWithoutKv (formatWords fmt)
        else .op (build w0 w1) (formatWords fmt)

/-! The encoder. -/

/-- The opcode of each row (30_encoding.md R102). -/
def opcode : Instr → BitVec 8
  | .qdSample => 0x01#8
  | .qdGetdir => 0x02#8
  | .tmrConfig _ _ => 0x10#8
  | .tmrRegisr _ _ _ => 0x11#8
  | .tmrReset _ => 0x12#8
  | .tmrRegper _ _ _ => 0x13#8
  | .tmrResetper _ => 0x14#8
  | .srvCenter => 0x20#8
  | .srvCw => 0x21#8
  | .srvCcw => 0x22#8
  | .lockCtrl _ _ _ _ _ => 0x30#8
  | .lockRstcomb => 0x31#8
  | .lockCheck => 0x32#8
  | .evQdedge _ => 0x80#8
  | .evTmrtick _ => 0x81#8
  | .evUstick => 0x82#8
  | .evPorst => 0x8E#8
  | .evSoftrst => 0x8F#8

/-- The first word: the opcode above 24 bits of fields (30_encoding.md R90). -/
def firstWord (opc : BitVec 8) (fields : BitVec 24) : Word := opc ++ fields

/-- The words of an instruction (30_encoding.md R94 to R100). -/
def encode (i : Instr) : List Word :=
  match i with
  | .qdSample => [firstWord (opcode i) 0#24]
  | .qdGetdir => [firstWord (opcode i) 0#24]
  | .tmrConfig tid period => [firstWord (opcode i) (tid ++ 0#16), period]
  | .tmrRegisr tid slot hid => [firstWord (opcode i) (tid ++ slot ++ 0#4 ++ hid)]
  | .tmrReset tid => [firstWord (opcode i) (tid ++ 0#16)]
  | .tmrRegper tid hid period => [firstWord (opcode i) (tid ++ 0#8 ++ hid), period]
  | .tmrResetper tid => [firstWord (opcode i) (tid ++ 0#16)]
  | .srvCenter => [firstWord (opcode i) 0#24]
  | .srvCw => [firstWord (opcode i) 0#24]
  | .srvCcw => [firstWord (opcode i) 0#24]
  | .lockCtrl bl br sw kv key =>
    [firstWord (opcode i)
      (0#16 ++ BitVec.ofBool bl ++ BitVec.ofBool br ++ BitVec.ofBool sw ++ BitVec.ofBool kv ++ key)]
  | .lockRstcomb => [firstWord (opcode i) 0#24]
  | .lockCheck => [firstWord (opcode i) 0#24]
  | .evQdedge code => [firstWord (opcode i) (0#22 ++ code)]
  | .evTmrtick tid => [firstWord (opcode i) (tid ++ 0#16)]
  | .evUstick => [firstWord (opcode i) 0#24]
  | .evPorst => [firstWord (opcode i) 0#24]
  | .evSoftrst => [firstWord (opcode i) 0#24]

/-! The byte transport: least significant byte first (20_memory.md R73). -/

/-- A word from its four bytes, lowest first. -/
def wordOfBytes (b0 b1 b2 b3 : Byte) : Word := b3 ++ b2 ++ b1 ++ b0

/-- The four bytes of a word, lowest first. -/
def bytesOfWord (w : Word) : List Byte :=
  [w.extractLsb' 0 8, w.extractLsb' 8 8, w.extractLsb' 16 8, w.extractLsb' 24 8]

/-- The whole words of a byte stream; a last fragment of fewer than four bytes is no word yet (log entry 19). -/
def wordsOfBytes : List Byte → List Word
  | b0 :: b1 :: b2 :: b3 :: rest => wordOfBytes b0 b1 b2 b3 :: wordsOfBytes rest
  | _ => []

/-- The decoder on a byte stream. -/
def decodeBytes (bs : List Byte) : Decoded := decode (wordsOfBytes bs)

/-- The encoder onto a byte stream. -/
def encodeBytes (i : Instr) : List Byte := (encode i).flatMap bytesOfWord

/-! The host's numbering of an instruction's bits. -/

/-- The words of the instruction whose low `nbits` bits are those of `w`, the first word in bits 31..0 and the second
in bits 63..32; as many words as the opcode says. -/
def tableWords (nbits w : Nat) : List Word :=
  let v := w % 2 ^ nbits
  let w0 : Word := BitVec.ofNat 32 v
  let w1 : Word := BitVec.ofNat 32 (v / 2 ^ 32)
  if wordCount (opcField w0) = 2 then [w0, w1] else [w0]

/-- The instruction the decoder reads from the bits `w` of an opcode-table row. -/
def decodeTableWord (nbits w : Nat) : Option Instr :=
  match decode (tableWords nbits w) with
  | .op i _ => some i
  | .illegal _ _ _ => none
  | .incomplete => none

/-! The assembler spelling (30_encoding.md R106). -/

/-- The names of the four sample codes, pin A first (30_encoding.md R106). -/
def codeName (code : BitVec 2) : String :=
  match code.toNat with
  | 0 => "LL"
  | 1 => "LH"
  | 2 => "HL"
  | _ => "HH"

/-- A mnemonic and its operands, separated by commas (30_encoding.md R106). -/
def asmLine (mnemonic : String) (operands : List String) : String :=
  match operands with
  | [] => mnemonic
  | _ :: _ => mnemonic ++ " " ++ ", ".intercalate operands

/-- One line of assembler per instruction, numbers in decimal (30_encoding.md R106, R107; log entry 19). -/
def asm : Instr → String
  | .qdSample => asmLine "QD.SAMPLE" []
  | .qdGetdir => asmLine "QD.GETDIR" []
  | .tmrConfig tid period => asmLine "TMR.CONFIG" [toString tid.toNat, toString period.toNat]
  | .tmrRegisr tid slot hid => asmLine "TMR.REGISR" [toString tid.toNat, toString slot.toNat, toString hid.toNat]
  | .tmrReset tid => asmLine "TMR.RESET" [toString tid.toNat]
  | .tmrRegper tid hid period => asmLine "TMR.REGPER" [toString tid.toNat, toString hid.toNat, toString period.toNat]
  | .tmrResetper tid => asmLine "TMR.RESETPER" [toString tid.toNat]
  | .srvCenter => asmLine "SRV.CENTER" []
  | .srvCw => asmLine "SRV.CW" []
  | .srvCcw => asmLine "SRV.CCW" []
  | .lockCtrl bl br sw kv key =>
    asmLine "LOCK.CTRL"
      ((if bl then ["BL"] else []) ++ (if br then ["BR"] else []) ++ (if sw then ["SW"] else []) ++
        (if kv then ["KEY=" ++ toString key.toNat] else []))
  | .lockRstcomb => asmLine "LOCK.RSTCOMB" []
  | .lockCheck => asmLine "LOCK.CHECK" []
  | .evQdedge code => asmLine "EV.QDEDGE" [codeName code]
  | .evTmrtick tid => asmLine "EV.TMRTICK" [toString tid.toNat]
  | .evUstick => asmLine "EV.USTICK" []
  | .evPorst => asmLine "EV.PORST" []
  | .evSoftrst => asmLine "EV.SOFTRST" []

end Sys2Proof
end

