-- ==== Sys2Proof/Machine/Fetch.lean ====
section
/-! DEFINITION. Reading the two channels: which channel is served, what stands at its head, what is consumed, and what
happens to a word that is no operation (30_encoding.md R91, R93, R103, R105; 60_exceptions.md R265, R270). -/

namespace Sys2Proof.Machine

/-- The words waiting on a channel, head first. -/
def State.channel (s : State) : Channel → List Word
  | .host => s.hostChan
  | .event => s.eventChan

/-- Writes what waits on a channel. -/
def State.setChannel (s : State) (ch : Channel) (ws : List Word) : State :=
  match ch with
  | .host => { s with hostChan := ws }
  | .event => { s with eventChan := ws }

/-- Consumes `n` words of a channel (30_encoding.md R93, R105). -/
def State.consume (s : State) (ch : Channel) (n : Nat) : State :=
  s.setChannel ch ((s.channel ch).drop n)

/-- Puts words at the head of a channel, and a turn of that channel before all other turns (log entry 3). -/
def State.deliver (s : State) (ch : Channel) (ws : List Word) : State :=
  { s.setChannel ch (ws ++ s.channel ch) with turns := ch :: s.turns }

/-- Whether an instruction is held at the head of its channel: a host command while `busy` (60_exceptions.md R270). -/
def State.holds (s : State) (i : Instr) : Bool :=
  decide (channelOf (opcode i) = .host) && s.busy

/-- An illegal host word is answered ILLEGAL, an illegal event word is ignored (30_encoding.md R103). -/
def State.answerIllegal (s : State) : Channel → State
  | .host => s.respond .illegal none
  | .event => s

/-- What a step has to do: nothing more than reach a state, or run an instruction in a state. -/
inductive Fetched where
  | settled (s : State)
  | run (i : Instr) (s : State)
  deriving DecidableEq, Repr

/-- Serves channel `ch`: an operation is consumed and run, unless it is held, when it stays at the head; an illegal word
is consumed and answered or ignored; with no whole command there, nothing happens (30_encoding.md R103, R105,
60_exceptions.md R270; log entry 2). -/
def State.serve (s : State) (ch : Channel) : Fetched :=
  match decode (s.channel ch) with
  | .op i n => .run i (if s.holds i then s else s.consume ch n)
  | .illegal c _ n => .settled ((s.consume ch n).answerIllegal c)
  | .incomplete => .settled s

/-- The state with one turn used up: `rest` are the turns still to come (20_memory.md R80). -/
def State.afterTurn (s : State) (rest : List Channel) : State := { s with turns := rest }

/-- Takes the next turn and serves its channel; with no turn left, nothing happens (20_memory.md R80; log entries 1, 2). -/
def State.fetch (s : State) : Fetched :=
  match s.turns with
  | [] => .settled s
  | ch :: rest => (s.afterTurn rest).serve ch

end Sys2Proof.Machine
end

