-- ==== Sys2Proof/Machine/Step.lean ====
section
/-! DEFINITION. One step of the machine (20_memory.md R76, R80), and the delivery of one instruction to it. -/

namespace Sys2Proof.Machine

/-- One atomic step: the next turn's channel is served (20_memory.md R76, R80). -/
def step (s : State) : Host.Outcome State Fault Refusal :=
  match s.fetch with
  | .settled t => .next t
  | .run i t => exec i t

/-- `s` with the instruction whose bits are `w` at the head of its channel and that channel's turn next (log entry 3). -/
def State.withFetchWord (s : State) (nbits w : Nat) : State :=
  s.deliver (channelOf (opcField (BitVec.ofNat 32 (w % 2 ^ nbits)))) (tableWords nbits w)

end Sys2Proof.Machine
end

