-- ==== Sys2Proof/Safety.lean ====
section
/-! DEFINITION. What statements about the machine are said in: a list of instructions run one after another, the invariant
of the machine, the invariant of the PWM countdowns, the exact rational period search of 41_timer.md, the entered
combination, and what an invocation of the lock controller leaves. -/

namespace Sys2Proof.Machine

/-- The instructions run in order, stopping at the first fault or refusal. -/
def execAll : List Instr → State → Host.Outcome State Fault Refusal
  | [], s => .next s
  | i :: is, s =>
    match exec i s with
    | .next t => execAll is t
    | .fault r => .fault r
    | .refused r => .refused r

/-- What holds of a counter timer of width `width` and prescaler list `ps` in every run: an enable bit is set exactly
where a handler is registered, and only below the slot count (10_state.md R45, R46); the registers of an OFF timer are
zero, and those of a configured one are as 41_timer.md R145, R146, R158, R159 and R165 say (10_state.md R40 to R43). -/
abbrev Timer.Inv (width : Nat) (ps : List Nat) (tm : Timer) : Prop :=
  (∀ k : Fin 3, tm.ie.getLsbD k.val = tm.handler[k.val].isSome) ∧
  (∀ k : Fin 3, tm.nslots ≤ k.val → tm.ie.getLsbD k.val = false) ∧
  (tm.mode = .off → tm.presc = 0 ∧ tm.top = 0 ∧ tm.tcnt = 0 ∧ tm.ocra = 0 ∧ tm.ocrb = 0) ∧
  (tm.mode = .normal →
    tm.presc ∈ ps ∧ tm.top = 2 ^ width ∧ tm.tcnt < 2 ^ width ∧ tm.ocra = 2 * 2 ^ width / 3 ∧
      tm.ocrb = tm.ocra / 2) ∧
  (tm.mode = .ctc →
    tm.presc ∈ ps ∧ 1 ≤ tm.top ∧ tm.top < 2 ^ width ∧ tm.tcnt < tm.top ∧ tm.ocra = tm.top ∧
      tm.ocrb = tm.top / 2)

/-- What holds of a ticker in every run (10_state.md R47, 41_timer.md R153, R163). -/
abbrev Ticker.Inv (k : Ticker) : Prop :=
  (k.attached = true → 1 ≤ k.period.toNat ∧ k.elapsed.toNat < k.period.toNat) ∧
  (k.attached = false → k.period = 0#32 ∧ k.handler = 0#8 ∧ k.elapsed = 0#32)

/-- The legal pulse widths (10_state.md R51). -/
abbrev LegalWidth (w : BitVec 16) : Prop := w = 500#16 ∨ w = 1500#16 ∨ w = 2500#16

/-- What holds of the lock group in every run: the expected direction alternates with the stage (10_state.md R56,
43_lock_fsm.md R214, R216), ALARMED is the state of three bad tries (R223), and the staging holds decimal digits
(10_state.md R61). -/
abbrev Lock.Inv (l : Lock) : Prop :=
  l.expected = (if l.stage = 1 then Dir.counterclockwise else Dir.clockwise) ∧
  (l.lkState = .alarmed ↔ l.badTries = 3#2) ∧
  (∀ k : Fin 6, l.chgSlot[k.val].toNat ≤ 99) ∧
  (∀ d ∈ l.chgTens, d.toNat ≤ 9)

/-- What holds of the LED and the busy state in every run (10_state.md R63, R64, 43_lock_fsm.md R238): at most four
phases, the LED on in the even ones, a display record pending exactly while a blink runs, and no blink outside LOCKED and
ALARMED. -/
abbrev State.BlinkInv (s : State) : Prop :=
  s.blink.phases.toNat ≤ 4 ∧
  (s.blink.led = true ↔ s.blink.phases = 2#3 ∨ s.blink.phases = 4#3) ∧
  (s.blink.pendingDisplay = true ↔ s.blink.phases ≠ 0#3) ∧
  (s.blink.phases ≠ 0#3 → s.lock.lkState = .locked ∨ s.lock.lkState = .alarmed)

/-- The invariant of the machine. -/
abbrev State.Inv (s : State) : Prop :=
  (∀ t : Fin 2, s.tmr[t.val].Inv s.params.timerWidth[t.val] s.params.prescalers[t.val]) ∧
  (∀ t : Fin 2, s.tk[t.val].Inv) ∧
  LegalWidth s.pwm.pulseWidth ∧
  s.lock.Inv ∧
  s.BlinkInv

/-- The invariant of the PWM countdowns under the premises of 00_scope.md R21 (42_pwm_servo.md R185): before the first
tick both are zero; later the rising countdown is in `(0, P]` and the falling countdown has lost as much of the width it
was loaded with as the rising one has lost of the period. The pin is high exactly while the falling countdown is
positive. -/
abbrev Pwm.Inv (p : Params) (w : Pwm) : Prop :=
  ((w.nextRise = 0#32 ∧ w.nextFall = 0#32) ∨
    (0 < w.nextRise.toInt ∧ w.nextRise.toInt ≤ p.pwmPeriodUs ∧
      (w.nextFall.toInt = 500 - (p.pwmPeriodUs - w.nextRise.toInt) ∨
        w.nextFall.toInt = 1500 - (p.pwmPeriodUs - w.nextRise.toInt) ∨
        w.nextFall.toInt = 2500 - (p.pwmPeriodUs - w.nextRise.toInt)))) ∧
  (w.out = true ↔ 0 < w.nextFall.toInt)

/-- PWM ticks one after another, with the servo register written between them: it holds `vs[j]` at tick `j`
(42_pwm_servo.md R186). -/
def Pwm.ticksWith (p : Params) (w : Pwm) (vs : List (BitVec 16)) : Pwm :=
  vs.foldl (fun w v => Pwm.tick p { w with pulseWidth := v }) w

/-! ## The period search in exact rationals -/

/-- `period(p, c)` in microseconds (41_timer.md R141). -/
def periodQ (fClk p c : Nat) : ℚ := (c : ℚ) * p * 1000000 / fClk

/-- The exact count `x` of a request of `P` microseconds at prescaler `p` (41_timer.md R142). -/
def exactCountQ (fClk P p : Nat) : ℚ := (P : ℚ) * fClk / (p * 1000000)

/-- A floor/ceil candidate count of prescaler `p` on a counter of width `w` (41_timer.md R165). -/
def FloorCeilCandidate (fClk w P p c : Nat) : Prop :=
  ((c : ℤ) = ⌊exactCountQ fClk P p⌋ ∨ (c : ℤ) = ⌈exactCountQ fClk P p⌉) ∧ 1 ≤ c ∧ c ≤ 2 ^ w

/-- The error of a candidate, in microseconds (41_timer.md R142). -/
def periodErrorQ (fClk P p c : Nat) : ℚ := |periodQ fClk p c - P|

/-! ## The lock controller -/

/-- The entered digits match the combination with the visible counts the rule asks for (43_lock_fsm.md R220). -/
abbrev Lock.EntryMatches (l : Lock) : Prop :=
  l.entered[0] = l.comb[0] ∧ l.entered[1] = l.comb[1] ∧ l.dial = l.comb[2] ∧
    3 ≤ l.vc[0].toNat ∧ l.vc[1].toNat = 2 ∧ l.vc[2].toNat = 1

/-- The lock group with the input latches of an invocation (43_lock_fsm.md R207), the keypad operand assembled as
30_encoding.md R99 says; an ill-formed term has no key (log entry 18). -/
def Lock.withInputs (l : Lock) (bl br kv : Bool) (key : BitVec 4) : Lock :=
  { l with prevBl := bl, prevBr := br, prevKey := if kv = true then some key else none }

/-- The state after an invocation that consumed the edge, left the lock group at `l` and began no blink: the display
record is out and the response is (OK, none) (43_lock_fsm.md R200, R236). -/
def State.invocationDone (s : State) (l : Lock) : State :=
  { s with
    qd := { s.qd with dir := .stationary }
    lock := l
    trace := s.trace ++ [.display ⟨l.lkState, l.dial, l.stage, l.badTries, l.chgIdx⟩]
    responses := s.responses ++ [⟨.ok, none⟩] }

/-- The pulse width register with a new value. -/
def State.withPulse (s : State) (w : BitVec 16) : State := { s with pwm := { s.pwm with pulseWidth := w } }

end Sys2Proof.Machine
end

