-- ==== Sys2Proof/Certificates/Slice0/Obligations.lean ====
section
/-! DEFINITION. The statements for the provers. -/

open Sys2Proof Sys2Proof.Machine

/-! ## Encoding -/

/-- 30_encoding.md R94 to R105: the decoder reads back every well-formed instruction from its encoding, whatever words
follow it on the channel, and consumes exactly the encoding. -/
def Obligations.DecodeInvertsEncode : Prop :=
  ∀ (i : Instr) (rest : List Word), i.wellFormed = true →
    decode (encode i ++ rest) = .op i (encode i).length

/-- 30_encoding.md R94 to R105: whatever decodes to an operation is the encoding of that operation, which is well-formed:
no bit of a word is dropped. -/
def Obligations.EncodeInvertsDecode : Prop :=
  ∀ (ws : List Word) (i : Instr) (n : Nat), decode ws = .op i n →
    i.wellFormed = true ∧ n ≤ ws.length ∧ ws.take n = encode i

/-- 20_memory.md R73: the same over a byte transport, least significant byte first. -/
def Obligations.ByteTransportRoundTrip : Prop :=
  (∀ (i : Instr) (rest : List Byte), i.wellFormed = true →
    decodeBytes (encodeBytes i ++ rest) = .op i (encode i).length) ∧
  (∀ w : Word, bytesOfWord w = [w.extractLsb' 0 8, w.extractLsb' 8 8, w.extractLsb' 16 8, w.extractLsb' 24 8]) ∧
  (∀ (w : Word) (bs : List Byte), wordsOfBytes (bytesOfWord w ++ bs) = w :: wordsOfBytes bs)

/-- 30_encoding.md R102, R103: with the operand word there, a word decodes to an operation exactly when none of these holds,
and to an illegal word, reported on the channel of its opcode, exactly when one does: its opcode is unassigned, a reserved
bit of its format is set, or it is an LK word with `KV = 0` and `KEY != 0`. -/
def Obligations.IllegalWordsAreExactlyThese : Prop :=
  ∀ (w0 w1 : Word) (rest : List Word),
    let opc := (w0.extractLsb' 24 8).toNat
    let bad : Prop :=
      opc ∉ [0x01, 0x02, 0x10, 0x11, 0x12, 0x13, 0x14, 0x20, 0x21, 0x22, 0x30, 0x31, 0x32, 0x80, 0x81, 0x82, 0x8E, 0x8F] ∨
      (opc ∈ [0x01, 0x02, 0x20, 0x21, 0x22, 0x31, 0x32, 0x82, 0x8E, 0x8F] ∧ w0.extractLsb' 0 24 ≠ 0#24) ∨
      (opc ∈ [0x10, 0x12, 0x14, 0x81] ∧ w0.extractLsb' 0 16 ≠ 0#16) ∨
      (opc = 0x11 ∧ w0.extractLsb' 8 4 ≠ 0#4) ∨
      (opc = 0x13 ∧ w0.extractLsb' 8 8 ≠ 0#8) ∨
      (opc = 0x30 ∧ w0.extractLsb' 8 16 ≠ 0#16) ∨
      (opc = 0x30 ∧ w0.getLsbD 4 = false ∧ w0.extractLsb' 0 4 ≠ 0#4) ∨
      (opc = 0x80 ∧ w0.extractLsb' 2 22 ≠ 0#22)
    ((∃ i n, decode (w0 :: w1 :: rest) = .op i n) ↔ ¬ bad) ∧
    ((∃ why n, decode (w0 :: w1 :: rest) = .illegal (if opc < 0x80 then .host else .event) why n) ↔ bad) ∧
    ((∃ ch why n, decode (w0 :: w1 :: rest) = .illegal ch why n) ↔ bad)

/-- 95_test_vectors.md 2.1 to 2.8, 30_encoding.md R102, R103, R105: words of the spec's tables decode to the instructions the
tables name. That the illegal TMR.CONFIG word consumes its operand word too (two words, as R105 and vector E7 have it, where
R103 says one) is log entry 9, deduced. -/
def Obligations.SpecWordsDecode : Prop :=
  decode [0x02000000#32] = .op .qdGetdir 1 ∧
  decode [0x10010000#32, 0x00003FFF#32] = .op (.tmrConfig 1#8 16383#32) 2 ∧
  decode [0x11002009#32] = .op (.tmrRegisr 0#8 2#4 9#8) 1 ∧
  decode [0x13010005#32, 0x000003E8#32] = .op (.tmrRegper 1#8 5#8 1000#32) 2 ∧
  decode [0x22000000#32] = .op .srvCcw 1 ∧
  decode [0x300000F3#32] = .op (.lockCtrl true true true true 3#4) 1 ∧
  decode [0x30000010#32] = .op (.lockCtrl false false false true 0#4) 1 ∧
  decode [0x80000002#32] = .op (.evQdedge 0b10#2) 1 ∧
  decode [0x81010000#32] = .op (.evTmrtick 1#8) 1 ∧
  decode [0x8F000000#32] = .op .evSoftrst 1 ∧
  decode [0x30000005#32] = .illegal .host .keyWithoutKv 1 ∧
  decode [0x10000100#32, 0x00000064#32] = .illegal .host .reservedField 2 ∧
  decode [0x83000000#32] = .illegal .event .unassignedOpcode 1

/-- 10_state.md R34, R37: the codes of the quadrature states and of the direction edges; the codes 5 to 7 and 3 are held
by none; a sample code maps to the state of its zero-extension. -/
def Obligations.EnumerationCodes : Prop :=
  QState.code .lowLow = 0b000#3 ∧ QState.code .lowHigh = 0b001#3 ∧ QState.code .highLow = 0b010#3 ∧
  QState.code .highHigh = 0b011#3 ∧ QState.code .unknown = 0b100#3 ∧ (∀ q : QState, q.code.toNat < 5) ∧
  (∀ c : BitVec 2, (qstate c).code = c.setWidth 3) ∧
  Dir.code .stationary = 0b00#2 ∧ Dir.code .clockwise = 0b01#2 ∧ Dir.code .counterclockwise = 0b10#2 ∧
  ∀ d : Dir, d.code ≠ 0b11#2

/-! ## Steps -/

/-- 30_encoding.md R93, R105, 60_exceptions.md R270: when the channel whose turn it is holds an operation at its head, the
step runs exactly that instruction, its words consumed unless it is a host command held by `busy`. Three clauses are the
model's choice, not the spec's: that the list `turns` names the channel served (log entry 1), that the step uses the turn up
even when the command is held (log entry 2), and that an operation on the other agent's channel is run by its opcode (log
entry 8). -/
def Obligations.StepRunsDecodedInstruction : Prop :=
  ∀ (s : State) (ch : Channel) (rest : List Channel) (i : Instr) (n : Nat),
    s.turns = ch :: rest → decode (s.channel ch) = .op i n →
    step s = exec i
      (if channelOf (opcode i) = .host ∧ s.busy = true then { s with turns := rest }
       else match ch with
        | .host => { s with turns := rest, hostChan := s.hostChan.drop n }
        | .event => { s with turns := rest, eventChan := s.eventChan.drop n })

/-- 30_encoding.md R103, R105, 60_exceptions.md R265: an illegal word of the host channel is consumed and answered
(ILLEGAL, none), even while `busy`; an illegal event word is consumed and ignored. Two things here are the model's, not the
spec's: that the list `turns` names the channel served and loses that turn (log entry 1), and that `n` is 2 for an illegal
two-word command (log entry 9, deduced from R105 against R103). -/
def Obligations.StepAnswersIllegalWords : Prop :=
  ∀ (s : State) (rest : List Channel) (why : Reject) (n : Nat),
    (s.turns = .host :: rest → decode s.hostChan = .illegal .host why n →
      step s = .next { s with turns := rest, hostChan := s.hostChan.drop n,
                              responses := s.responses ++ [⟨.illegal, none⟩] }) ∧
    (s.turns = .event :: rest → decode s.eventChan = .illegal .event why n →
      step s = .next { s with turns := rest, eventChan := s.eventChan.drop n })

/-- The model's choice (log entries 1 and 2): with no turn left nothing happens, and a turn of a channel that holds no
whole command is used up with no other effect. -/
def Obligations.StepIdlesWithoutCommand : Prop :=
  ∀ s : State,
    (s.turns = [] → step s = .next s) ∧
    ∀ (ch : Channel) (rest : List Channel), s.turns = ch :: rest → decode (s.channel ch) = .incomplete →
      step s = .next { s with turns := rest }

/-- 60_exceptions.md R270: while `busy`, every host command leaves the state as it is, and a step that meets one at the head
of the host channel leaves it there, with nothing else changed. That such a step uses up its turn is the model's choice, not
the spec's (log entries 1 and 2). -/
def Obligations.HostCommandsAreHeldWhileBusy : Prop :=
  ∀ (s : State) (i : Instr), s.busy = true → channelOf (opcode i) = .host →
    exec i s = .next s ∧
    ∀ (rest : List Channel) (n : Nat), s.turns = .host :: rest → decode s.hostChan = .op i n →
      step s = .next { s with turns := rest }

/-- 60_exceptions.md R281: no step of the model faults or gets stuck. -/
def Obligations.EveryStepAnswersNext : Prop :=
  (∀ (i : Instr) (s : State), ∃ t, exec i s = .next t) ∧ ∀ s : State, ∃ t, step s = .next t

/-- 20_memory.md R80, 00_scope.md R27, log entries 1, 4 and 7: a step uses up at most one turn, takes words only from the
heads of the channels, only appends to the responses (at most one) and to the trace, and never writes the parameters. -/
def Obligations.StepOnlyConsumesAndAppends : Prop :=
  ∀ s t : State, step s = .next t →
    t.params = s.params ∧ t.turns = s.turns.tail ∧
    (∃ a b, t.hostChan = s.hostChan.drop a ∧ t.eventChan = s.eventChan.drop b) ∧
    (∃ rs, t.responses = s.responses ++ rs ∧ rs.length ≤ 1) ∧ s.trace <+: t.trace

/-- 30_encoding.md R91, 00_scope.md R27: a host command that is not held responds exactly once; an event never responds. -/
def Obligations.HostCommandsRespondOnce : Prop :=
  ∀ (i : Instr) (s : State),
    (channelOf (opcode i) = .host → s.busy = false →
      ∃ t r, exec i s = .next t ∧ t.responses = s.responses ++ [r]) ∧
    (channelOf (opcode i) = .event → ∃ t, exec i s = .next t ∧ t.responses = s.responses)

/-! ## Invariants -/

/-- 10_state.md R39 to R47, R51, R56, R59, R61 to R64, 41_timer.md R145, R146, R158, R165: every step keeps the invariant
of the machine. -/
def Obligations.EveryStepKeepsTheInvariant : Prop :=
  ∀ s t : State, s.Inv → step s = .next t → t.Inv

/-- The invariant of the machine holds after reset. -/
def Obligations.InvariantHoldsAtReset : Prop := State.reset.Inv

/-- 42_pwm_servo.md R185 with the premises of 00_scope.md R21: every step keeps the bounds of the PWM countdowns, so no
countdown wraps. -/
def Obligations.EveryStepKeepsThePwmBounds : Prop :=
  ∀ s t : State, s.params.Wf → LegalWidth s.pwm.pulseWidth → s.pwm.Inv s.params → step s = .next t →
    t.pwm.Inv t.params ∧ LegalWidth t.pwm.pulseWidth ∧
    -(s.params.pwmTickUs : Int) ≤ t.pwm.nextRise.toInt ∧ t.pwm.nextRise.toInt ≤ s.params.pwmPeriodUs ∧
    -2 ^ 31 < t.pwm.nextFall.toInt ∧ t.pwm.nextFall.toInt ≤ 2500

/-- The bounds of the PWM countdowns hold after reset, for whatever parameters. -/
def Obligations.PwmBoundsHoldAtReset : Prop :=
  State.reset.pwm.Inv State.reset.params ∧ LegalWidth State.reset.pwm.pulseWidth

/-! ## The quadrature decoder -/

/-- 40_quadrature.md R120: QD.SAMPLE answers the pin levels and writes nothing else. -/
def Obligations.QdSampleAnswersThePins : Prop :=
  ∀ s : State, s.busy = false →
    exec .qdSample s = .next { s with responses := s.responses ++ [⟨.ok, some (.two s.qd.pins)⟩] }

/-- 40_quadrature.md R122: QD.GETDIR answers the code of the pending edge and clears it, and writes nothing else. -/
def Obligations.QdGetdirConsumesTheEdge : Prop :=
  ∀ s : State, s.busy = false →
    exec .qdGetdir s = .next { s with qd := { s.qd with dir := .stationary },
                                      responses := s.responses ++ [⟨.ok, some (.two s.qd.dir.code)⟩] }

/-- 40_quadrature.md R121, R123, R125, R126: EV.QDEDGE, busy or not, writes the pins, shifts the history, and writes the
pending edge exactly when the three last samples are HIGH_HIGH, HIGH_LOW, LOW_LOW or HIGH_HIGH, LOW_HIGH, LOW_LOW; else the
pending edge keeps its value. Nothing else is written. -/
def Obligations.QdEdgeShiftsHistoryAndDetectsSteps : Prop :=
  ∀ (s : State) (code : BitVec 2), ∃ (n : QState) (d : Dir),
    exec (.evQdedge code) s = .next { s with qd := { pins := code, last := s.qd.state, state := n, dir := d } } ∧
    n.code = code.setWidth 3 ∧
    d = (if s.qd.last = .highHigh ∧ s.qd.state = .highLow ∧ code = 0b00#2 then .clockwise
         else if s.qd.last = .highHigh ∧ s.qd.state = .lowHigh ∧ code = 0b00#2 then .counterclockwise
         else s.qd.dir)

/-- 40_quadrature.md R129: over any sequence of samples in which, with the two samples before it, no three in a row are one
of the two step triples, the decoder never writes the pending edge. -/
def Obligations.NoStepTripleNoEdge : Prop :=
  ∀ (s : State) (codes : List (BitVec 2)),
    ¬ [0b011#3, 0b010#3, 0b000#3] <:+: [s.qd.last.code, s.qd.state.code] ++ codes.map (·.setWidth 3) →
    ¬ [0b011#3, 0b001#3, 0b000#3] <:+: [s.qd.last.code, s.qd.state.code] ++ codes.map (·.setWidth 3) →
    ∃ t, execAll (codes.map .evQdedge) s = .next t ∧ t.qd.dir = s.qd.dir

/-- 40_quadrature.md R131: with both history fields UNKNOWN and nothing pending, no two samples give an edge, and the third
gives one exactly for HIGH_HIGH, HIGH_LOW, LOW_LOW (clockwise) and HIGH_HIGH, LOW_HIGH, LOW_LOW (counterclockwise). -/
def Obligations.FirstEdgeNeedsThreeSamples : Prop :=
  ∀ (s : State) (a b c : BitVec 2), s.qd.state = .unknown → s.qd.last = .unknown → s.qd.dir = .stationary →
    ∃ t u, execAll [.evQdedge a, .evQdedge b] s = .next t ∧ t.qd.dir = .stationary ∧
      exec (.evQdedge c) t = .next u ∧
      (u.qd.dir = .clockwise ↔ a = 0b11#2 ∧ b = 0b10#2 ∧ c = 0b00#2) ∧
      (u.qd.dir = .counterclockwise ↔ a = 0b11#2 ∧ b = 0b01#2 ∧ c = 0b00#2)

/-! ## The timer driver -/

/-- 41_timer.md R141 to R148, R165, R166: for a valid timer and a period of at least 1, TMR.CONFIG answers NO_SOLUTION and writes
nothing when no prescaler has a floor/ceil candidate; else it takes the candidate of least exact rational error, the first
such in the order of R143, writes the timer's record as R145 to R147 say and answers the exact period. That the period is
answered as the pair `(c * p * 1000000, F_CLK_HZ)`, not reduced, is the model's choice (log entry 10): R166 allows either
form. -/
def Obligations.TmrConfigTakesTheFirstNearestCandidate : Prop :=
  ∀ (s : State) (tid : BitVec 8) (period : BitVec 32) (t : Fin 2),
    s.params.Wf → s.busy = false → tid.toNat = t.val → 1 ≤ period.toNat →
    let f := s.params.fClkHz
    let w := s.params.timerWidth[t.val]
    let ps := s.params.prescalers[t.val]
    let P := period.toNat
    ((∀ p ∈ ps, ∀ c, ¬ FloorCeilCandidate f w P p c) ∧
      exec (.tmrConfig tid period) s = .next { s with responses := s.responses ++ [⟨.noSolution, none⟩] }) ∨
    ∃ j p c : Nat, ps[j]? = some p ∧ FloorCeilCandidate f w P p c ∧
      (∀ p' ∈ ps, ∀ c', FloorCeilCandidate f w P p' c' → periodErrorQ f P p c ≤ periodErrorQ f P p' c') ∧
      (∀ j' p' : Nat, j' < j → ps[j']? = some p' → ∀ c', FloorCeilCandidate f w P p' c' →
        periodErrorQ f P p c < periodErrorQ f P p' c') ∧
      (∀ c', c' < c → FloorCeilCandidate f w P p c' → periodErrorQ f P p c < periodErrorQ f P p c') ∧
      exec (.tmrConfig tid period) s = .next { s with
        tmr := s.tmr.set t.val
          { mode := if c = 2 ^ w then .normal else .ctc
            presc := p
            top := c
            tcnt := 0
            ocra := if c = 2 ^ w then 2 * 2 ^ w / 3 else c
            ocrb := if c = 2 ^ w then 2 * 2 ^ w / 3 / 2 else c / 2
            ie := if c = 2 ^ w then s.tmr[t.val].ie else s.tmr[t.val].ie &&& 0b011#3
            handler := if c = 2 ^ w then s.tmr[t.val].handler else s.tmr[t.val].handler.set 2 none } t.isLt
        responses := s.responses ++ [⟨.ok, some (.period (c * p * 1000000) f)⟩] }

/-- 41_timer.md R148, 60_exceptions.md R261: an invalid timer id or a period below 1 microsecond is answered NO_SOLUTION with
no state written. -/
def Obligations.TmrConfigRefusesBadRequests : Prop :=
  ∀ (s : State) (tid : BitVec 8) (period : BitVec 32), s.busy = false → 2 ≤ tid.toNat ∨ period = 0#32 →
    exec (.tmrConfig tid period) s = .next { s with responses := s.responses ++ [⟨.noSolution, none⟩] }

/-- 41_timer.md R150, 60_exceptions.md R262: TMR.REGISR registers the handler and enables the slot when the slot is below the
slot count of the mode (3 in NORMAL, 2 in CTC, 0 in OFF); an invalid id or slot is answered (FAIL, 0) with no state
written. -/
def Obligations.TmrRegisrRegistersUsableSlots : Prop :=
  ∀ (s : State) (tid : BitVec 8) (slot : BitVec 4) (hid : BitVec 8), s.busy = false →
    (∀ (t : Fin 2) (k : Fin 3), tid.toNat = t.val → slot.toNat = k.val →
      (s.tmr[t.val].mode = .normal ∨ (s.tmr[t.val].mode = .ctc ∧ k.val < 2)) →
      exec (.tmrRegisr tid slot hid) s = .next { s with
        tmr := s.tmr.set t.val { s.tmr[t.val] with
          handler := s.tmr[t.val].handler.set k.val (some hid) k.isLt
          ie := s.tmr[t.val].ie ||| (1#3 <<< k.val) } t.isLt
        responses := s.responses ++ [⟨.ok, some (.one 1#1)⟩] }) ∧
    (2 ≤ tid.toNat ∨ 3 ≤ slot.toNat ∨
        (∃ t : Fin 2, tid.toNat = t.val ∧ (s.tmr[t.val].mode = .off ∨ (s.tmr[t.val].mode = .ctc ∧ slot.toNat = 2))) →
      exec (.tmrRegisr tid slot hid) s =
        .next { s with responses := s.responses ++ [⟨.fail, some (.one 0#1)⟩] })

/-- 41_timer.md R152, 60_exceptions.md R262: TMR.RESET zeroes the counter of a valid timer and leaves the rest of its record;
an invalid id is answered (FAIL, none) with no state written. -/
def Obligations.TmrResetZeroesTheCounter : Prop :=
  ∀ (s : State) (tid : BitVec 8), s.busy = false →
    (∀ t : Fin 2, tid.toNat = t.val →
      exec (.tmrReset tid) s = .next { s with
        tmr := s.tmr.set t.val { s.tmr[t.val] with tcnt := 0 } t.isLt
        responses := s.responses ++ [⟨.ok, none⟩] }) ∧
    (2 ≤ tid.toNat →
      exec (.tmrReset tid) s = .next { s with responses := s.responses ++ [⟨.fail, none⟩] })

/-- 41_timer.md R153: TMR.REGPER attaches the ticker with the period and handler given and its phase at 0, the counter timers
untouched; an invalid id or a zero period is answered (FAIL, 0) with no state written. -/
def Obligations.TmrRegperAttachesTheTicker : Prop :=
  ∀ (s : State) (tid hid : BitVec 8) (period : BitVec 32), s.busy = false →
    (∀ t : Fin 2, tid.toNat = t.val → period ≠ 0#32 →
      exec (.tmrRegper tid hid period) s = .next { s with
        tk := s.tk.set t.val { attached := true, period := period, handler := hid, elapsed := 0#32 } t.isLt
        responses := s.responses ++ [⟨.ok, some (.one 1#1)⟩] }) ∧
    (2 ≤ tid.toNat ∨ period = 0#32 →
      exec (.tmrRegper tid hid period) s =
        .next { s with responses := s.responses ++ [⟨.fail, some (.one 0#1)⟩] })

/-- 41_timer.md R155: TMR.RESETPER puts an attached ticker's phase to 0 and keeps its period and handler; on a detached ticker
it writes nothing; both answer (OK, none); an invalid id is answered (FAIL, none). -/
def Obligations.TmrResetperRestartsThePhase : Prop :=
  ∀ (s : State) (tid : BitVec 8), s.busy = false →
    (∀ t : Fin 2, tid.toNat = t.val → s.tk[t.val].attached = true →
      exec (.tmrResetper tid) s = .next { s with
        tk := s.tk.set t.val { s.tk[t.val] with elapsed := 0#32 } t.isLt
        responses := s.responses ++ [⟨.ok, none⟩] }) ∧
    (∀ t : Fin 2, tid.toNat = t.val → s.tk[t.val].attached = false →
      exec (.tmrResetper tid) s = .next { s with responses := s.responses ++ [⟨.ok, none⟩] }) ∧
    (2 ≤ tid.toNat →
      exec (.tmrResetper tid) s = .next { s with responses := s.responses ++ [⟨.fail, none⟩] })

/-- 41_timer.md R162: a tick of an invalid timer id, or of a timer that is OFF, changes nothing. -/
def Obligations.TickOfNoConfiguredTimerIsIgnored : Prop :=
  ∀ (s : State) (tid : BitVec 8),
    (2 ≤ tid.toNat ∨ ∃ t : Fin 2, tid.toNat = t.val ∧ s.tmr[t.val].mode = .off) →
    exec (.evTmrtick tid) s = .next s

/-- 41_timer.md R157, R158: a tick in CTC mode, busy or not: the counter clears at compare-A (or at its wrap), slot 0 fires
at compare-A, then slot 1 at compare-B; a fired slot dispatches when it is enabled; nothing else happens. -/
def Obligations.TickInCtcMode : Prop :=
  ∀ (s : State) (tid : BitVec 8) (t : Fin 2), tid.toNat = t.val → s.tmr[t.val].mode = .ctc →
    let tm := s.tmr[t.val]
    let nxt := tm.tcnt + 1
    let s1 : State := { s with
      tmr := s.tmr.set t.val { tm with
        tcnt := if nxt = tm.ocra then 0 else if nxt = 2 ^ s.params.timerWidth[t.val] then 0 else nxt } t.isLt }
    let s2 := if nxt = tm.ocra ∧ tm.ie.getLsbD 0 = true then s1.dispatch t 0 else s1
    exec (.evTmrtick tid) s = .next (if nxt = tm.ocrb ∧ tm.ie.getLsbD 1 = true then s2.dispatch t 1 else s2)

/-- 41_timer.md R157, R159: a tick in NORMAL mode, busy or not: the counter overflows to 0 at its full range, where slot 0
fires; slot 1 fires at compare-A and slot 2 at compare-B; a fired slot dispatches when it is enabled; nothing else
happens. -/
def Obligations.TickInNormalMode : Prop :=
  ∀ (s : State) (tid : BitVec 8) (t : Fin 2), tid.toNat = t.val → s.tmr[t.val].mode = .normal →
    let tm := s.tmr[t.val]
    let nxt := tm.tcnt + 1
    let full := 2 ^ s.params.timerWidth[t.val]
    let s1 : State := { s with
      tmr := s.tmr.set t.val { tm with tcnt := if nxt = full then 0 else nxt } t.isLt }
    let s2 := if nxt = full ∧ tm.ie.getLsbD 0 = true then s1.dispatch t 0 else s1
    let s3 := if nxt = tm.ocra ∧ tm.ie.getLsbD 1 = true then s2.dispatch t 1 else s2
    exec (.evTmrtick tid) s = .next (if nxt = tm.ocrb ∧ tm.ie.getLsbD 2 = true then s3.dispatch t 2 else s3)

/-- 41_timer.md R157 to R160, 42_pwm_servo.md R180, R187: from a counter at 0 of a configured timer, `n` ticks leave the
counter at `n` modulo the selected count, change nothing else of the timer, and dispatch slot 0 once per period: an external
handler there is called back `n / top` times. Handler 0 there is `n / top` PWM ticks, to which every other slot that carries
handler 0 adds one per period, the first at its compare value (none where that value is 0). -/
def Obligations.SlotZeroFiresOncePerPeriod : Prop :=
  ∀ (s : State) (tid : BitVec 8) (t : Fin 2) (n : Nat),
    tid.toNat = t.val → s.tmr[t.val].Inv s.params.timerWidth[t.val] s.params.prescalers[t.val] →
    s.tmr[t.val].mode ≠ .off → s.tmr[t.val].tcnt = 0 →
    let tm := s.tmr[t.val]
    let passes := fun v : Nat => if v = 0 then 0 else (n + tm.top - v) / tm.top
    ∃ u, execAll (List.replicate n (.evTmrtick tid)) s = .next u ∧
      u.tmr = s.tmr.set t.val { tm with tcnt := n % tm.top } t.isLt ∧
      (∀ h : BitVec 8, h ≠ 0#8 → tm.handler[0] = some h →
        u.trace.count (.callback (.timer t 0) h) = s.trace.count (.callback (.timer t 0) h) + n / tm.top) ∧
      u.pwm = (Pwm.tick s.params)^[
        (if tm.handler[0] = some 0#8 then n / tm.top else 0) +
        (if tm.handler[1] = some 0#8 then passes (if tm.mode = .normal then tm.ocra else tm.ocrb) else 0) +
        (if tm.handler[2] = some 0#8 then passes tm.ocrb else 0)] s.pwm

/-- 41_timer.md R160, R164, 60_exceptions.md R266: a dispatched handler 0 is one PWM tick; every other handler is emitted as a
CALLBACK with its source and id; nothing else changes. -/
def Obligations.DispatchRunsThePwmTickOrEmitsACallback : Prop :=
  ∀ (s : State) (t : Fin 2) (k : Fin 3) (h : BitVec 8),
    (s.tmr[t.val].handler[k.val] = some h →
      s.dispatch t k = if h = 0#8 then { s with pwm := s.pwm.tick s.params }
        else { s with trace := s.trace ++ [.callback (.timer t k) h] }) ∧
    (s.tk[t.val].handler = h →
      s.dispatchTicker t = if h = 0#8 then { s with pwm := s.pwm.tick s.params }
        else { s with trace := s.trace ++ [.callback (.ticker t) h] })

/-- 41_timer.md R163, R164, 43_lock_fsm.md R239: EV.USTICK, busy or not: the microsecond counter advances modulo 2^32; each
attached ticker counts and fires when its period has passed, ticker 0 before ticker 1; then the blink advances, and the
display record goes out with its last phase. Nothing else is written. -/
def Obligations.UstickAdvancesCounterTickersAndBlink : Prop :=
  ∀ s : State,
    let us := s.usCounter + 1#32
    let due := fun k : Fin 2 => s.tk[k.val].attached = true ∧ s.tk[k.val].period.toNat ≤ (s.tk[k.val].elapsed + 1#32).toNat
    let phaseOver := s.blink.phases ≠ 0#3 ∧ s.params.blinkPhaseUs ≤ (us - s.blink.start).toNat
    let left := s.blink.phases - 1#3
    ∃ t tk0 tk1, exec .evUstick s = .next t ∧
      t = { s with
        usCounter := us
        tk := #v[tk0, tk1]
        pwm := (Pwm.tick s.params)^[(if due 0 ∧ s.tk[0].handler = 0#8 then 1 else 0) +
                                    (if due 1 ∧ s.tk[1].handler = 0#8 then 1 else 0)] s.pwm
        blink := if phaseOver then
            { led := decide (left = 2#3 ∨ left = 4#3 ∨ left = 6#3), phases := left, start := us,
              pendingDisplay := s.blink.pendingDisplay && decide (left ≠ 0#3) }
          else s.blink
        trace := s.trace ++
          (if due 0 ∧ s.tk[0].handler ≠ 0#8 then [.callback (.ticker 0) s.tk[0].handler] else []) ++
          (if due 1 ∧ s.tk[1].handler ≠ 0#8 then [.callback (.ticker 1) s.tk[1].handler] else []) ++
          (if phaseOver ∧ left = 0#3 ∧ s.blink.pendingDisplay = true then
            [.display ⟨s.lock.lkState, s.lock.dial, s.lock.stage, s.lock.badTries, s.lock.chgIdx⟩] else []) } ∧
      tk0 = { s.tk[0] with
        elapsed := if s.tk[0].attached = true then (if due 0 then 0#32 else s.tk[0].elapsed + 1#32)
                   else s.tk[0].elapsed } ∧
      tk1 = { s.tk[1] with
        elapsed := if s.tk[1].attached = true then (if due 1 then 0#32 else s.tk[1].elapsed + 1#32)
                   else s.tk[1].elapsed }

/-- 41_timer.md R153, R163, R164: over `n` microseconds an attached ticker's phase moves modulo its period, its record is otherwise
unchanged, and an external handler is called back once per period. The PWM ticks of the `n` microseconds are one per period
of each attached ticker that carries handler 0 (42_pwm_servo.md R180, R187). -/
def Obligations.TickerFiresOncePerPeriod : Prop :=
  ∀ (s : State) (k : Fin 2) (n : Nat), s.tk[k.val].Inv → s.tk[k.val].attached = true →
    ∃ u, execAll (List.replicate n .evUstick) s = .next u ∧
      u.tk[k.val] = { s.tk[k.val] with
        elapsed := BitVec.ofNat 32 ((s.tk[k.val].elapsed.toNat + n) % s.tk[k.val].period.toNat) } ∧
      (s.tk[k.val].handler ≠ 0#8 →
        u.trace.count (.callback (.ticker k) s.tk[k.val].handler) =
          s.trace.count (.callback (.ticker k) s.tk[k.val].handler) +
            (s.tk[k.val].elapsed.toNat + n) / s.tk[k.val].period.toNat) ∧
      ((∀ j : Fin 2, s.tk[j.val].Inv) →
        let ticks := fun j : Fin 2 =>
          if s.tk[j.val].attached = true ∧ s.tk[j.val].handler = 0#8 then
            (s.tk[j.val].elapsed.toNat + n) / s.tk[j.val].period.toNat
          else 0
        u.pwm = (Pwm.tick s.params)^[ticks 0 + ticks 1] s.pwm)

/-! ## PWM and servo -/

/-- 42_pwm_servo.md R181 to R183: one PWM tick in Int32 arithmetic: both countdowns lose the tick increment; at a rising
countdown of zero or below the pin goes high and both countdowns are reloaded; otherwise at a falling countdown of zero or
below the pin goes low. A reloaded falling countdown is zero or below only for the width 0. -/
def Obligations.PwmTickRisesThenFalls : Prop :=
  ∀ (p : Params) (w : Pwm),
    let rise := w.nextRise - BitVec.ofNat 32 p.pwmTickUs
    let fall := w.nextFall - BitVec.ofNat 32 p.pwmTickUs
    (rise.toInt ≤ 0 → w.tick p =
      { nextRise := BitVec.ofNat 32 p.pwmPeriodUs, nextFall := w.pulseWidth.setWidth 32,
        out := decide (w.pulseWidth ≠ 0#16), pulseWidth := w.pulseWidth }) ∧
    (0 < rise.toInt → w.tick p =
      { nextRise := rise, nextFall := fall, out := w.out && decide (0 < fall.toInt), pulseWidth := w.pulseWidth })

/-- 42_pwm_servo.md R184, R186: from a rising tick that loaded the width `width`, with T = `PWM_TICK_US`, P =
`PWM_PERIOD_US` and whatever the servo register is written to between the ticks (`vs` lists what it holds at each): at the
n-th later tick before the next rising one the pin is high exactly for `n < ceil(width / T)`; the next rising tick is the
`ceil(P / T)`-th, and it loads what the register holds then. -/
def Obligations.PwmWaveform : Prop :=
  ∀ (p : Params) (w : Pwm) (width : BitVec 16), p.Wf → LegalWidth width →
    w.nextRise = BitVec.ofNat 32 p.pwmPeriodUs → w.nextFall = width.setWidth 32 → w.out = true →
    (∀ vs : List (BitVec 16), vs.length < (p.pwmPeriodUs + p.pwmTickUs - 1) / p.pwmTickUs →
      ((w.ticksWith p vs).out = true ↔ vs.length < (width.toNat + p.pwmTickUs - 1) / p.pwmTickUs)) ∧
    ∀ (vs : List (BitVec 16)) (v : BitVec 16), LegalWidth v →
      vs.length + 1 = (p.pwmPeriodUs + p.pwmTickUs - 1) / p.pwmTickUs →
      w.ticksWith p (vs ++ [v]) =
        { nextRise := BitVec.ofNat 32 p.pwmPeriodUs, nextFall := v.setWidth 32, out := true, pulseWidth := v }

/-- 42_pwm_servo.md R188 to R191: each servo command replaces the pulse width outright (1500, `SERVO_CW_US`,
`3000 - SERVO_CW_US`), answers (OK, none), and writes nothing else. 10_state.md R51: the three positions have the same
widths. -/
def Obligations.ServoCommandsSetThePulseWidth : Prop :=
  ∀ (s : State) (cw : Nat),
    (s.params.servoCw = .us500 ∧ cw = 500) ∨ (s.params.servoCw = .us2500 ∧ cw = 2500) →
    (positionWidth s.params .center = 1500#16 ∧
      positionWidth s.params .fullCw = BitVec.ofNat 16 cw ∧
      positionWidth s.params .fullCcw = BitVec.ofNat 16 (3000 - cw)) ∧
    (s.busy = false →
      exec .srvCenter s = .next { s with pwm := { s.pwm with pulseWidth := 1500#16 },
                                         responses := s.responses ++ [⟨.ok, none⟩] } ∧
      exec .srvCw s = .next { s with pwm := { s.pwm with pulseWidth := BitVec.ofNat 16 cw },
                                     responses := s.responses ++ [⟨.ok, none⟩] } ∧
      exec .srvCcw s = .next { s with pwm := { s.pwm with pulseWidth := BitVec.ofNat 16 (3000 - cw) },
                                      responses := s.responses ++ [⟨.ok, none⟩] })

/-! ## The lock controller -/

/-- 43_lock_fsm.md R210, R211, R213, R214, R216, R217: what an edge does to the entry progress: nothing when it is
STATIONARY; a turn of the dial, with its visible pass counted and saturated, in the expected direction; a stage advance
without a turn against it below stage 2; the progress cleared against it at stage 2. -/
def Obligations.EdgeTurnsAdvancesOrClears : Prop :=
  ∀ (l : Lock) (e : Dir),
    (e = .stationary → l.takeEdge e = l) ∧
    (e ≠ .stationary → e = l.expected →
      ∃ d : BitVec 4, d.toNat = (l.dial.toNat + (if e = .clockwise then 1 else 15)) % 16 ∧
        l.takeEdge e = { l with
          dial := d
          vc := if d = l.comb[l.stage.val] then
              l.vc.set l.stage.val (BitVec.ofNat 8 (min (l.vc[l.stage.val].toNat + 1) 255)) l.stage.isLt
            else l.vc }) ∧
    (e ≠ .stationary → e ≠ l.expected → ∀ h : l.stage.val < 2,
      l.takeEdge e = { l with
        entered := l.entered.set l.stage.val l.dial h
        stage := ⟨l.stage.val + 1, by omega⟩
        expected := opposite l.expected }) ∧
    (e ≠ .stationary → e ≠ l.expected → l.stage = 2 →
      l.takeEdge e = { l with
        dial := 0#4, stage := 0, expected := .clockwise, entered := #v[0#4, 0#4], vc := #v[0#8, 0#8, 0#8] }) ∧
    opposite .clockwise = .counterclockwise ∧ opposite .counterclockwise = .clockwise

/-- 43_lock_fsm.md R200, R204, R207, R210, R219: LOCK.CTRL in LOCKED with no left press at stage 2 (after the edge): the latches
take the inputs, the edge is consumed and handled, the display record goes out, the answer is (OK, none), and nothing else
changes. -/
def Obligations.LockedInvocationHandlesTheEdge : Prop :=
  ∀ (s : State) (bl br sw kv : Bool) (key : BitVec 4), s.busy = false → s.lock.lkState = .locked →
    let l := (s.lock.withInputs bl br kv key).takeEdge s.qd.dir
    ¬ (bl = true ∧ s.lock.prevBl = false ∧ l.stage = 2) →
    exec (.lockCtrl bl br sw kv key) s = .next (s.invocationDone l)

/-- 43_lock_fsm.md R210, R218, R220, R221, R203: LOCK.CTRL in LOCKED with a left press at stage 2 after the edge, and an entry
that matches: UNLOCKED, the servo commanded to `POS_UNLOCKED`, progress and bad tries kept. -/
def Obligations.MatchingEntryUnlocks : Prop :=
  ∀ (s : State) (br sw kv : Bool) (key : BitVec 4), s.busy = false → s.lock.lkState = .locked →
    s.lock.prevBl = false →
    let l := (s.lock.withInputs true br kv key).takeEdge s.qd.dir
    l.stage = 2 → l.EntryMatches →
    exec (.lockCtrl true br sw kv key) s =
      .next ((s.invocationDone { l with lkState := .unlocked }).withPulse
        (positionWidth s.params s.params.posUnlocked))

/-- 43_lock_fsm.md R210, R218, R222, R237: the same press with an entry that does not match, and not the third failure: one more
bad try, progress cleared, the four-phase blink begun with the LED on, the display record left for its end. -/
def Obligations.FailedEntryBlinks : Prop :=
  ∀ (s : State) (br sw kv : Bool) (key : BitVec 4), s.busy = false → s.lock.lkState = .locked →
    s.lock.prevBl = false →
    let l := (s.lock.withInputs true br kv key).takeEdge s.qd.dir
    l.stage = 2 → ¬ l.EntryMatches → s.lock.badTries ≠ 2#2 →
    exec (.lockCtrl true br sw kv key) s = .next { s with
      qd := { s.qd with dir := .stationary }
      lock := { l with
        badTries := l.badTries + 1#2, dial := 0#4, stage := 0, expected := .clockwise,
        entered := #v[0#4, 0#4], vc := #v[0#8, 0#8, 0#8] }
      blink := { led := true, phases := 4#3, start := s.usCounter, pendingDisplay := true }
      responses := s.responses ++ [⟨.ok, none⟩] }

/-- 43_lock_fsm.md R210, R218, R223: the failure that brings the bad tries to 3: ALARMED, no blink, progress kept. -/
def Obligations.ThirdFailureAlarms : Prop :=
  ∀ (s : State) (br sw kv : Bool) (key : BitVec 4), s.busy = false → s.lock.lkState = .locked →
    s.lock.prevBl = false →
    let l := (s.lock.withInputs true br kv key).takeEdge s.qd.dir
    l.stage = 2 → ¬ l.EntryMatches → s.lock.badTries = 2#2 →
    exec (.lockCtrl true br sw kv key) s =
      .next (s.invocationDone { l with badTries := 3#2, lkState := .alarmed })

/-- 43_lock_fsm.md R224 to R227: LOCK.CTRL in UNLOCKED consumes the edge; both buttons pressed together relock, with progress
and bad tries cleared and the servo commanded to `POS_LOCKED`; else a right press with the switch in the change position
enters CHANGING with the staging cleared; else the lock stays as it is. -/
def Obligations.UnlockedInvocation : Prop :=
  ∀ (s : State) (bl br sw kv : Bool) (key : BitVec 4), s.busy = false → s.lock.lkState = .unlocked →
    let l := s.lock.withInputs bl br kv key
    let both := bl = true ∧ br = true ∧ ¬ (s.lock.prevBl = true ∧ s.lock.prevBr = true)
    let right := br = true ∧ s.lock.prevBr = false
    (both → exec (.lockCtrl bl br sw kv key) s =
      .next ((s.invocationDone { l with
        lkState := .locked, badTries := 0#2, dial := 0#4, stage := 0, expected := .clockwise,
        entered := #v[0#4, 0#4], vc := #v[0#8, 0#8, 0#8] }).withPulse (positionWidth s.params s.params.posLocked))) ∧
    (¬ both → sw = true → right → exec (.lockCtrl bl br sw kv key) s =
      .next (s.invocationDone { l with
        lkState := .changing, chgSlot := #v[0#7, 0#7, 0#7, 0#7, 0#7, 0#7], chgIdx := 0, chgTens := none })) ∧
    (¬ both → ¬ (sw = true ∧ right) → exec (.lockCtrl bl br sw kv key) s = .next (s.invocationDone l))

/-- 43_lock_fsm.md R228 to R230, R233: LOCK.CTRL in CHANGING with the switch back consumes the edge and commits: the first three
staged digits become the combination exactly when all six slots are filled, the two halves agree and every digit is at most
15; either way the staging is cleared and the lock is UNLOCKED, the servo untouched. -/
def Obligations.ChangingCommits : Prop :=
  ∀ (s : State) (bl br kv : Bool) (key : BitVec 4), s.busy = false → s.lock.lkState = .changing →
    let l := s.lock.withInputs bl br kv key
    ∃ comb : Vector (BitVec 4) 3,
      exec (.lockCtrl bl br false kv key) s = .next (s.invocationDone { l with
        comb := comb, lkState := .unlocked,
        chgSlot := #v[0#7, 0#7, 0#7, 0#7, 0#7, 0#7], chgIdx := 0, chgTens := none }) ∧
      (s.lock.chgIdx = 6 ∧ (∀ k : Fin 3, s.lock.chgSlot[k.val] = s.lock.chgSlot[k.val + 3]) ∧
          (∀ k : Fin 6, s.lock.chgSlot[k.val].toNat ≤ 15) →
        ∀ k : Fin 3, comb[k.val].toNat = s.lock.chgSlot[k.val].toNat) ∧
      (¬ (s.lock.chgIdx = 6 ∧ (∀ k : Fin 3, s.lock.chgSlot[k.val] = s.lock.chgSlot[k.val + 3]) ∧
          (∀ k : Fin 6, s.lock.chgSlot[k.val].toNat ≤ 15)) → comb = s.lock.comb)

/-- 43_lock_fsm.md R228, R231, R232: LOCK.CTRL in CHANGING with the switch in the change position consumes the edge. A key that
was down at the previous invocation and is up now is a stroke: the tens digit when none is buffered, else the ones digit,
which fills the next slot. No release, a key above 9 or a full buffer enters nothing. -/
def Obligations.ChangingTakesKeyStrokes : Prop :=
  ∀ (s : State) (bl br kv : Bool) (key : BitVec 4), s.busy = false → s.lock.lkState = .changing →
    let l := s.lock.withInputs bl br kv key
    (∀ k : BitVec 4, s.lock.prevKey = some k → kv = false → k.toNat ≤ 9 →
      (s.lock.chgIdx ≠ 6 → s.lock.chgTens = none →
        exec (.lockCtrl bl br true kv key) s = .next (s.invocationDone { l with chgTens := some k })) ∧
      ∀ (tens : BitVec 4) (h : s.lock.chgIdx.val < 6), s.lock.chgTens = some tens →
        exec (.lockCtrl bl br true kv key) s = .next (s.invocationDone { l with
          chgSlot := s.lock.chgSlot.set s.lock.chgIdx.val (BitVec.ofNat 7 (10 * tens.toNat + k.toNat)) h
          chgIdx := ⟨s.lock.chgIdx.val + 1, by omega⟩
          chgTens := none })) ∧
    ((kv = true ∨ s.lock.prevKey = none ∨ s.lock.chgIdx = 6 ∨ ∃ k, s.lock.prevKey = some k ∧ 9 < k.toNat) →
      exec (.lockCtrl bl br true kv key) s = .next (s.invocationDone l))

/-- 43_lock_fsm.md R200, R204, R207, R234, R237: LOCK.CTRL in ALARMED latches the inputs, consumes no edge and begins the
two-phase alarm blink, its display record left for the end of the blink; nothing else changes. -/
def Obligations.AlarmedInvocationBlinks : Prop :=
  ∀ (s : State) (bl br sw kv : Bool) (key : BitVec 4), s.busy = false → s.lock.lkState = .alarmed →
    exec (.lockCtrl bl br sw kv key) s = .next { s with
      lock := s.lock.withInputs bl br kv key
      blink := { led := true, phases := 2#3, start := s.usCounter, pendingDisplay := true }
      responses := s.responses ++ [⟨.ok, none⟩] }

/-- 43_lock_fsm.md R235, R247: no command and no event but the two resets leaves ALARMED or changes the entry progress or the
bad tries there, and only LOCK.RSTCOMB writes the combination there; both resets leave ALARMED for LOCKED. -/
def Obligations.AlarmIsLeftByResetsAlone : Prop :=
  ∀ (i : Instr) (s t : State), s.lock.lkState = .alarmed → exec i s = .next t →
    (i ≠ .evPorst → i ≠ .evSoftrst →
      t.lock.lkState = .alarmed ∧ t.lock.dial = s.lock.dial ∧ t.lock.stage = s.lock.stage ∧
      t.lock.expected = s.lock.expected ∧ t.lock.entered = s.lock.entered ∧ t.lock.vc = s.lock.vc ∧
      t.lock.badTries = s.lock.badTries ∧ (i ≠ .lockRstcomb → t.lock.comb = s.lock.comb)) ∧
    (i = .evPorst ∨ i = .evSoftrst → t.lock.lkState = .locked)

/-- 43_lock_fsm.md R203, R218 to R221, R229, R233: an instruction that makes the lock UNLOCKED when it was not is a LOCK.CTRL:
either a left press in LOCKED at stage 2 with an entry that matches, after the edge of that invocation, or the commit that
leaves CHANGING. -/
def Obligations.OnlyAMatchingEntryOrACommitUnlocks : Prop :=
  ∀ (i : Instr) (s t : State), exec i s = .next t → t.lock.lkState = .unlocked → s.lock.lkState ≠ .unlocked →
    ∃ bl br sw kv key, i = .lockCtrl bl br sw kv key ∧ s.busy = false ∧
      ((s.lock.lkState = .changing ∧ sw = false) ∨
        (s.lock.lkState = .locked ∧ bl = true ∧ s.lock.prevBl = false ∧
          ((s.lock.withInputs bl br kv key).takeEdge s.qd.dir).stage = 2 ∧
          ((s.lock.withInputs bl br kv key).takeEdge s.qd.dir).EntryMatches))

/-- 10_state.md R53, 43_lock_fsm.md R230, R233, R244: the stored combination is written by LOCK.RSTCOMB, by a power-on reset, and
by a LOCK.CTRL in CHANGING with the switch back and a staging that is full, repeated and in range; a soft reset keeps it. -/
def Obligations.WritersOfTheCombination : Prop :=
  ∀ (i : Instr) (s t : State), exec i s = .next t → t.lock.comb ≠ s.lock.comb →
    (i = .lockRstcomb ∧ t.lock.comb = #v[5#4, 10#4, 15#4]) ∨ i = .evPorst ∨
    ∃ bl br kv key, i = .lockCtrl bl br false kv key ∧ s.lock.lkState = .changing ∧ s.lock.chgIdx = 6 ∧
      (∀ k : Fin 3, s.lock.chgSlot[k.val] = s.lock.chgSlot[k.val + 3]) ∧
      (∀ k : Fin 6, s.lock.chgSlot[k.val].toNat ≤ 15) ∧
      ∀ k : Fin 3, t.lock.comb[k.val].toNat = s.lock.chgSlot[k.val].toNat

/-- 43_lock_fsm.md R238, R240, 70_reset_and_hazards.md R311: a blink of `n` phases just begun lasts exactly
`n * BLINK_PHASE_US` EV.USTICK events: after `m` of them `m / BLINK_PHASE_US` phases are over, the LED is on in the phases of
even number, and `busy` ends with the last event, with the LED off. -/
def Obligations.BlinkLastsItsPhases : Prop :=
  ∀ (s : State) (n m : Nat), s.params.Wf → n = 2 ∨ n = 4 → s.blink.phases = BitVec.ofNat 3 n →
    s.blink.start = s.usCounter → s.blink.led = true → m ≤ n * s.params.blinkPhaseUs →
    ∃ t, execAll (List.replicate m .evUstick) s = .next t ∧
      t.blink.phases.toNat = n - m / s.params.blinkPhaseUs ∧
      (t.busy = true ↔ m < n * s.params.blinkPhaseUs) ∧
      (t.blink.led = true ↔ m < n * s.params.blinkPhaseUs ∧ (n - m / s.params.blinkPhaseUs) % 2 = 0)

/-- 43_lock_fsm.md R244: LOCK.RSTCOMB stores the default combination, in every lock state, and writes nothing else. -/
def Obligations.LockRstcombStoresTheDefault : Prop :=
  ∀ s : State, s.busy = false →
    exec .lockRstcomb s = .next { s with lock := { s.lock with comb := #v[5#4, 10#4, 15#4] },
                                         responses := s.responses ++ [⟨.ok, none⟩] }

/-- 43_lock_fsm.md R220, R245: LOCK.CHECK answers whether the entry matches, in every lock state and stage, and writes nothing
else. -/
def Obligations.LockCheckAnswersTheMatch : Prop :=
  ∀ s : State, s.busy = false →
    exec .lockCheck s = .next { s with
      responses := s.responses ++ [⟨.ok, some (.one (if s.lock.EntryMatches then 1#1 else 0#1))⟩] }

/-! ## Resets -/

/-- 70_reset_and_hazards.md R290, R292: EV.PORST, busy or not, writes every field of its rule; the combination takes whatever
digits (a free value each, log entry 6); the pins, the channels, the responses and the trace are not written. -/
def Obligations.PowerOnResetWritesEveryField : Prop :=
  ∀ s : State, ∃ (comb : Vector (BitVec 4) 3) (k : Nat), exec .evPorst s = .next { s with
    powerOns := k
    qd := { pins := s.qd.pins, state := .unknown, last := .unknown, dir := .stationary }
    tmr := #v[⟨.off, 0, 0, 0, 0, 0, 0b000#3, #v[none, none, none]⟩, ⟨.off, 0, 0, 0, 0, 0, 0b000#3, #v[none, none, none]⟩]
    tk := #v[⟨false, 0#32, 0#8, 0#32⟩, ⟨false, 0#32, 0#8, 0#32⟩]
    usCounter := 0#32
    pwm := ⟨0#32, 0#32, false, positionWidth s.params s.params.posLocked⟩
    lock := { lkState := .locked, comb := comb, dial := 0#4, stage := 0, expected := .clockwise,
              entered := #v[0#4, 0#4], vc := #v[0#8, 0#8, 0#8], badTries := 0#2, prevBl := false, prevBr := false,
              prevKey := none, chgSlot := #v[0#7, 0#7, 0#7, 0#7, 0#7, 0#7], chgIdx := 0, chgTens := none }
    blink := ⟨false, 0#3, 0#32, false⟩ }

/-- 70_reset_and_hazards.md R291, R292: EV.SOFTRST, busy or not, makes the assignments of EV.PORST and retains the stored
combination. -/
def Obligations.SoftResetKeepsTheCombination : Prop :=
  ∀ s : State, exec .evSoftrst s = .next { s with
    qd := { pins := s.qd.pins, state := .unknown, last := .unknown, dir := .stationary }
    tmr := #v[⟨.off, 0, 0, 0, 0, 0, 0b000#3, #v[none, none, none]⟩, ⟨.off, 0, 0, 0, 0, 0, 0b000#3, #v[none, none, none]⟩]
    tk := #v[⟨false, 0#32, 0#8, 0#32⟩, ⟨false, 0#32, 0#8, 0#32⟩]
    usCounter := 0#32
    pwm := ⟨0#32, 0#32, false, positionWidth s.params s.params.posLocked⟩
    lock := { lkState := .locked, comb := s.lock.comb, dial := 0#4, stage := 0, expected := .clockwise,
              entered := #v[0#4, 0#4], vc := #v[0#8, 0#8, 0#8], badTries := 0#2, prevBl := false, prevBr := false,
              prevKey := none, chgSlot := #v[0#7, 0#7, 0#7, 0#7, 0#7, 0#7], chgIdx := 0, chgTens := none }
    blink := ⟨false, 0#3, 0#32, false⟩ }

/-- 70_reset_and_hazards.md R293: the state after reset: LOCKED with cleared progress and no bad try, both timers OFF with no
handler, both tickers detached, the PWM output low with its first tick a rising edge, no edge pending, not busy. -/
def Obligations.ResetLeavesTheInitialState : Prop :=
  State.reset.lock.lkState = .locked ∧ State.reset.lock.dial = 0#4 ∧ State.reset.lock.stage = 0 ∧
  State.reset.lock.expected = .clockwise ∧ State.reset.lock.entered = #v[0#4, 0#4] ∧
  State.reset.lock.vc = #v[0#8, 0#8, 0#8] ∧ State.reset.lock.badTries = 0#2 ∧
  (∀ t : Fin 2, State.reset.tmr[t.val].mode = .off ∧ State.reset.tmr[t.val].handler = #v[none, none, none]) ∧
  (∀ t : Fin 2, State.reset.tk[t.val].attached = false) ∧
  State.reset.pwm.out = false ∧ State.reset.pwm.nextRise = 0#32 ∧ State.reset.pwm.nextFall = 0#32 ∧
  State.reset.qd.dir = .stationary ∧ State.reset.qd.state = .unknown ∧ State.reset.qd.last = .unknown ∧
  State.reset.busy = false ∧ State.reset.blink.pendingDisplay = false

/-- 10_state.md R69: each group of state is written by no instruction but those the rule lists for it, named here by their
opcodes (30_encoding.md R102); the resets do not write the pins, and EV.SOFTRST does not write the combination. -/
def Obligations.WritersOfEachStateGroup : Prop :=
  ∀ (i : Instr) (s t : State), exec i s = .next t →
    (opcode i ∉ [0x80#8] → t.qd.pins = s.qd.pins) ∧
    (opcode i ∉ [0x80#8, 0x8E#8, 0x8F#8] → t.qd.state = s.qd.state ∧ t.qd.last = s.qd.last) ∧
    (opcode i ∉ [0x80#8, 0x02#8, 0x30#8, 0x8E#8, 0x8F#8] → t.qd.dir = s.qd.dir) ∧
    (opcode i ∉ [0x10#8, 0x11#8, 0x12#8, 0x81#8, 0x8E#8, 0x8F#8] → t.tmr = s.tmr) ∧
    (opcode i ∉ [0x13#8, 0x14#8, 0x82#8, 0x8E#8, 0x8F#8] → t.tk = s.tk) ∧
    (opcode i ∉ [0x82#8, 0x8E#8, 0x8F#8] → t.usCounter = s.usCounter) ∧
    (opcode i ∉ [0x81#8, 0x82#8, 0x8E#8, 0x8F#8] →
      t.pwm.nextRise = s.pwm.nextRise ∧ t.pwm.nextFall = s.pwm.nextFall ∧ t.pwm.out = s.pwm.out) ∧
    (opcode i ∉ [0x20#8, 0x21#8, 0x22#8, 0x30#8, 0x8E#8, 0x8F#8] → t.pwm.pulseWidth = s.pwm.pulseWidth) ∧
    (opcode i ∉ [0x30#8, 0x31#8, 0x8E#8] → t.lock.comb = s.lock.comb) ∧
    (opcode i ∉ [0x30#8, 0x8E#8, 0x8F#8] → t.lock = { s.lock with comb := t.lock.comb }) ∧
    (opcode i ∉ [0x30#8, 0x82#8, 0x8E#8, 0x8F#8] → t.blink = s.blink)
end

