-- ==== Sys2Proof/Laws/Decode.lean ====
section
/-! SUPPORT. The small lemmas of the decoder and encoder: the fields of a built word, and the row of each opcode. -/

namespace Sys2Proof

/-- The bits of a first word: the operand bits below bit 24, the opcode above. -/
theorem getLsbD_firstWord (opc : BitVec 8) (f : BitVec 24) (i : Nat) :
    (firstWord opc f).getLsbD i = if i < 24 then f.getLsbD i else opc.getLsbD (i - 24) :=
  BitVec.getLsbD_append ..

@[simp] theorem opcField_firstWord (opc : BitVec 8) (f : BitVec 24) : opcField (firstWord opc f) = opc := by
  apply BitVec.eq_of_getLsbD_eq
  intro i hi
  simp [opcField, getLsbD_firstWord, hi]

/-- Fields below the opcode are fields of the 24 operand bits. -/
theorem extractLsb'_firstWord (opc : BitVec 8) (f : BitVec 24) (lo n : Nat) (h : lo + n ≤ 24) :
    (firstWord opc f).extractLsb' lo n = f.extractLsb' lo n := by
  apply BitVec.eq_of_getLsbD_eq
  intro i hi
  simp [getLsbD_firstWord, hi, show lo + i < 24 by omega]

/-- All the rows an opcode can be assigned to (30_encoding.md R102). -/
theorem opcodeRow_cases {opc : BitVec 8} {fmt : Format} {build : Word → Word → Instr}
    (h : opcodeRow opc = some (fmt, build)) :
    (opc = 0x01#8 ∧ fmt = .n ∧ build = fun _ _ => .qdSample) ∨
    (opc = 0x02#8 ∧ fmt = .n ∧ build = fun _ _ => .qdGetdir) ∨
    (opc = 0x10#8 ∧ fmt = .tp ∧ build = fun w0 w1 => .tmrConfig (tidField w0) w1) ∨
    (opc = 0x11#8 ∧ fmt = .tsh ∧ build = fun w0 _ => .tmrRegisr (tidField w0) (slotField w0) (hidField w0)) ∨
    (opc = 0x12#8 ∧ fmt = .t ∧ build = fun w0 _ => .tmrReset (tidField w0)) ∨
    (opc = 0x13#8 ∧ fmt = .thp ∧ build = fun w0 w1 => .tmrRegper (tidField w0) (hidField w0) w1) ∨
    (opc = 0x14#8 ∧ fmt = .t ∧ build = fun w0 _ => .tmrResetper (tidField w0)) ∨
    (opc = 0x20#8 ∧ fmt = .n ∧ build = fun _ _ => .srvCenter) ∨
    (opc = 0x21#8 ∧ fmt = .n ∧ build = fun _ _ => .srvCw) ∨
    (opc = 0x22#8 ∧ fmt = .n ∧ build = fun _ _ => .srvCcw) ∨
    (opc = 0x30#8 ∧ fmt = .lk ∧ build = fun w0 _ => .lockCtrl (blField w0) (brField w0) (swField w0) (kvField w0) (keyField w0)) ∨
    (opc = 0x31#8 ∧ fmt = .n ∧ build = fun _ _ => .lockRstcomb) ∨
    (opc = 0x32#8 ∧ fmt = .n ∧ build = fun _ _ => .lockCheck) ∨
    (opc = 0x80#8 ∧ fmt = .qe ∧ build = fun w0 _ => .evQdedge (codeField w0)) ∨
    (opc = 0x81#8 ∧ fmt = .t ∧ build = fun w0 _ => .evTmrtick (tidField w0)) ∨
    (opc = 0x82#8 ∧ fmt = .n ∧ build = fun _ _ => .evUstick) ∨
    (opc = 0x8E#8 ∧ fmt = .n ∧ build = fun _ _ => .evPorst) ∨
    (opc = 0x8F#8 ∧ fmt = .n ∧ build = fun _ _ => .evSoftrst) := by
  have key : ∀ k : Nat, k < 256 → opc.toNat = k → opc = BitVec.ofNat 8 k := by
    intro k hk e
    apply BitVec.eq_of_toNat_eq
    rw [e, BitVec.toNat_ofNat, Nat.mod_eq_of_lt hk]
  unfold opcodeRow at h
  split at h <;> simp only [Option.some.injEq, Prod.mk.injEq, reduceCtorEq] at h <;>
    (rename_i e; obtain ⟨rfl, rfl⟩ := h; have := key _ (by decide) e; subst this; simp)

/-- The row of each instruction's own opcode has the length of its encoding (30_encoding.md R93). -/
theorem wordCount_opcode (i : Instr) : wordCount (opcode i) = (encode i).length := by
  cases i <;> rfl

/-- An encoding is never empty, and its first word carries the opcode (30_encoding.md R90). -/
theorem encode_head (i : Instr) : ∃ f rest, encode i = firstWord (opcode i) f :: rest := by
  cases i <;> exact ⟨_, _, rfl⟩

end Sys2Proof
end

