-- ==== Sys2Proof/Laws/State.lean ====
section
/-! SUPPORT. What each named update of Machine/Ops.lean does to each field of State: one lemma per field per update, true
by unfolding. -/

namespace Sys2Proof.Machine

@[simp] theorem State.respond_params (s : State) (st : Status) (v : Option RespValue) : (s.respond st v).params = s.params := rfl
@[simp] theorem State.respond_powerOns (s : State) (st : Status) (v : Option RespValue) : (s.respond st v).powerOns = s.powerOns := rfl
@[simp] theorem State.respond_qd (s : State) (st : Status) (v : Option RespValue) : (s.respond st v).qd = s.qd := rfl
@[simp] theorem State.respond_tmr (s : State) (st : Status) (v : Option RespValue) : (s.respond st v).tmr = s.tmr := rfl
@[simp] theorem State.respond_tk (s : State) (st : Status) (v : Option RespValue) : (s.respond st v).tk = s.tk := rfl
@[simp] theorem State.respond_usCounter (s : State) (st : Status) (v : Option RespValue) : (s.respond st v).usCounter = s.usCounter := rfl
@[simp] theorem State.respond_pwm (s : State) (st : Status) (v : Option RespValue) : (s.respond st v).pwm = s.pwm := rfl
@[simp] theorem State.respond_lock (s : State) (st : Status) (v : Option RespValue) : (s.respond st v).lock = s.lock := rfl
@[simp] theorem State.respond_blink (s : State) (st : Status) (v : Option RespValue) : (s.respond st v).blink = s.blink := rfl
@[simp] theorem State.respond_hostChan (s : State) (st : Status) (v : Option RespValue) : (s.respond st v).hostChan = s.hostChan := rfl
@[simp] theorem State.respond_eventChan (s : State) (st : Status) (v : Option RespValue) : (s.respond st v).eventChan = s.eventChan := rfl
@[simp] theorem State.respond_turns (s : State) (st : Status) (v : Option RespValue) : (s.respond st v).turns = s.turns := rfl
@[simp] theorem State.respond_responses (s : State) (st : Status) (v : Option RespValue) : (s.respond st v).responses = s.responses ++ [{ status := st, value := v }] := rfl
@[simp] theorem State.respond_trace (s : State) (st : Status) (v : Option RespValue) : (s.respond st v).trace = s.trace := rfl

@[simp] theorem State.emit_params (s : State) (e : OutEvent) : (s.emit e).params = s.params := rfl
@[simp] theorem State.emit_powerOns (s : State) (e : OutEvent) : (s.emit e).powerOns = s.powerOns := rfl
@[simp] theorem State.emit_qd (s : State) (e : OutEvent) : (s.emit e).qd = s.qd := rfl
@[simp] theorem State.emit_tmr (s : State) (e : OutEvent) : (s.emit e).tmr = s.tmr := rfl
@[simp] theorem State.emit_tk (s : State) (e : OutEvent) : (s.emit e).tk = s.tk := rfl
@[simp] theorem State.emit_usCounter (s : State) (e : OutEvent) : (s.emit e).usCounter = s.usCounter := rfl
@[simp] theorem State.emit_pwm (s : State) (e : OutEvent) : (s.emit e).pwm = s.pwm := rfl
@[simp] theorem State.emit_lock (s : State) (e : OutEvent) : (s.emit e).lock = s.lock := rfl
@[simp] theorem State.emit_blink (s : State) (e : OutEvent) : (s.emit e).blink = s.blink := rfl
@[simp] theorem State.emit_hostChan (s : State) (e : OutEvent) : (s.emit e).hostChan = s.hostChan := rfl
@[simp] theorem State.emit_eventChan (s : State) (e : OutEvent) : (s.emit e).eventChan = s.eventChan := rfl
@[simp] theorem State.emit_turns (s : State) (e : OutEvent) : (s.emit e).turns = s.turns := rfl
@[simp] theorem State.emit_responses (s : State) (e : OutEvent) : (s.emit e).responses = s.responses := rfl
@[simp] theorem State.emit_trace (s : State) (e : OutEvent) : (s.emit e).trace = s.trace ++ [e] := rfl

@[simp] theorem State.setTimer_params (s : State) (t : Fin 2) (tm : Timer) : (s.setTimer t tm).params = s.params := rfl
@[simp] theorem State.setTimer_powerOns (s : State) (t : Fin 2) (tm : Timer) : (s.setTimer t tm).powerOns = s.powerOns := rfl
@[simp] theorem State.setTimer_qd (s : State) (t : Fin 2) (tm : Timer) : (s.setTimer t tm).qd = s.qd := rfl
@[simp] theorem State.setTimer_tmr (s : State) (t : Fin 2) (tm : Timer) : (s.setTimer t tm).tmr = s.tmr.set t.val tm t.isLt := rfl
@[simp] theorem State.setTimer_tk (s : State) (t : Fin 2) (tm : Timer) : (s.setTimer t tm).tk = s.tk := rfl
@[simp] theorem State.setTimer_usCounter (s : State) (t : Fin 2) (tm : Timer) : (s.setTimer t tm).usCounter = s.usCounter := rfl
@[simp] theorem State.setTimer_pwm (s : State) (t : Fin 2) (tm : Timer) : (s.setTimer t tm).pwm = s.pwm := rfl
@[simp] theorem State.setTimer_lock (s : State) (t : Fin 2) (tm : Timer) : (s.setTimer t tm).lock = s.lock := rfl
@[simp] theorem State.setTimer_blink (s : State) (t : Fin 2) (tm : Timer) : (s.setTimer t tm).blink = s.blink := rfl
@[simp] theorem State.setTimer_hostChan (s : State) (t : Fin 2) (tm : Timer) : (s.setTimer t tm).hostChan = s.hostChan := rfl
@[simp] theorem State.setTimer_eventChan (s : State) (t : Fin 2) (tm : Timer) : (s.setTimer t tm).eventChan = s.eventChan := rfl
@[simp] theorem State.setTimer_turns (s : State) (t : Fin 2) (tm : Timer) : (s.setTimer t tm).turns = s.turns := rfl
@[simp] theorem State.setTimer_responses (s : State) (t : Fin 2) (tm : Timer) : (s.setTimer t tm).responses = s.responses := rfl
@[simp] theorem State.setTimer_trace (s : State) (t : Fin 2) (tm : Timer) : (s.setTimer t tm).trace = s.trace := rfl

@[simp] theorem State.setTicker_params (s : State) (t : Fin 2) (k : Ticker) : (s.setTicker t k).params = s.params := rfl
@[simp] theorem State.setTicker_powerOns (s : State) (t : Fin 2) (k : Ticker) : (s.setTicker t k).powerOns = s.powerOns := rfl
@[simp] theorem State.setTicker_qd (s : State) (t : Fin 2) (k : Ticker) : (s.setTicker t k).qd = s.qd := rfl
@[simp] theorem State.setTicker_tmr (s : State) (t : Fin 2) (k : Ticker) : (s.setTicker t k).tmr = s.tmr := rfl
@[simp] theorem State.setTicker_tk (s : State) (t : Fin 2) (k : Ticker) : (s.setTicker t k).tk = s.tk.set t.val k t.isLt := rfl
@[simp] theorem State.setTicker_usCounter (s : State) (t : Fin 2) (k : Ticker) : (s.setTicker t k).usCounter = s.usCounter := rfl
@[simp] theorem State.setTicker_pwm (s : State) (t : Fin 2) (k : Ticker) : (s.setTicker t k).pwm = s.pwm := rfl
@[simp] theorem State.setTicker_lock (s : State) (t : Fin 2) (k : Ticker) : (s.setTicker t k).lock = s.lock := rfl
@[simp] theorem State.setTicker_blink (s : State) (t : Fin 2) (k : Ticker) : (s.setTicker t k).blink = s.blink := rfl
@[simp] theorem State.setTicker_hostChan (s : State) (t : Fin 2) (k : Ticker) : (s.setTicker t k).hostChan = s.hostChan := rfl
@[simp] theorem State.setTicker_eventChan (s : State) (t : Fin 2) (k : Ticker) : (s.setTicker t k).eventChan = s.eventChan := rfl
@[simp] theorem State.setTicker_turns (s : State) (t : Fin 2) (k : Ticker) : (s.setTicker t k).turns = s.turns := rfl
@[simp] theorem State.setTicker_responses (s : State) (t : Fin 2) (k : Ticker) : (s.setTicker t k).responses = s.responses := rfl
@[simp] theorem State.setTicker_trace (s : State) (t : Fin 2) (k : Ticker) : (s.setTicker t k).trace = s.trace := rfl

@[simp] theorem State.setLock_params (s : State) (l : Lock) : (s.setLock l).params = s.params := rfl
@[simp] theorem State.setLock_powerOns (s : State) (l : Lock) : (s.setLock l).powerOns = s.powerOns := rfl
@[simp] theorem State.setLock_qd (s : State) (l : Lock) : (s.setLock l).qd = s.qd := rfl
@[simp] theorem State.setLock_tmr (s : State) (l : Lock) : (s.setLock l).tmr = s.tmr := rfl
@[simp] theorem State.setLock_tk (s : State) (l : Lock) : (s.setLock l).tk = s.tk := rfl
@[simp] theorem State.setLock_usCounter (s : State) (l : Lock) : (s.setLock l).usCounter = s.usCounter := rfl
@[simp] theorem State.setLock_pwm (s : State) (l : Lock) : (s.setLock l).pwm = s.pwm := rfl
@[simp] theorem State.setLock_lock (s : State) (l : Lock) : (s.setLock l).lock = l := rfl
@[simp] theorem State.setLock_blink (s : State) (l : Lock) : (s.setLock l).blink = s.blink := rfl
@[simp] theorem State.setLock_hostChan (s : State) (l : Lock) : (s.setLock l).hostChan = s.hostChan := rfl
@[simp] theorem State.setLock_eventChan (s : State) (l : Lock) : (s.setLock l).eventChan = s.eventChan := rfl
@[simp] theorem State.setLock_turns (s : State) (l : Lock) : (s.setLock l).turns = s.turns := rfl
@[simp] theorem State.setLock_responses (s : State) (l : Lock) : (s.setLock l).responses = s.responses := rfl
@[simp] theorem State.setLock_trace (s : State) (l : Lock) : (s.setLock l).trace = s.trace := rfl

@[simp] theorem State.setPulseWidth_params (s : State) (w : BitVec 16) : (s.setPulseWidth w).params = s.params := rfl
@[simp] theorem State.setPulseWidth_powerOns (s : State) (w : BitVec 16) : (s.setPulseWidth w).powerOns = s.powerOns := rfl
@[simp] theorem State.setPulseWidth_qd (s : State) (w : BitVec 16) : (s.setPulseWidth w).qd = s.qd := rfl
@[simp] theorem State.setPulseWidth_tmr (s : State) (w : BitVec 16) : (s.setPulseWidth w).tmr = s.tmr := rfl
@[simp] theorem State.setPulseWidth_tk (s : State) (w : BitVec 16) : (s.setPulseWidth w).tk = s.tk := rfl
@[simp] theorem State.setPulseWidth_usCounter (s : State) (w : BitVec 16) : (s.setPulseWidth w).usCounter = s.usCounter := rfl
@[simp] theorem State.setPulseWidth_pwm (s : State) (w : BitVec 16) : (s.setPulseWidth w).pwm = { s.pwm with pulseWidth := w } := rfl
@[simp] theorem State.setPulseWidth_lock (s : State) (w : BitVec 16) : (s.setPulseWidth w).lock = s.lock := rfl
@[simp] theorem State.setPulseWidth_blink (s : State) (w : BitVec 16) : (s.setPulseWidth w).blink = s.blink := rfl
@[simp] theorem State.setPulseWidth_hostChan (s : State) (w : BitVec 16) : (s.setPulseWidth w).hostChan = s.hostChan := rfl
@[simp] theorem State.setPulseWidth_eventChan (s : State) (w : BitVec 16) : (s.setPulseWidth w).eventChan = s.eventChan := rfl
@[simp] theorem State.setPulseWidth_turns (s : State) (w : BitVec 16) : (s.setPulseWidth w).turns = s.turns := rfl
@[simp] theorem State.setPulseWidth_responses (s : State) (w : BitVec 16) : (s.setPulseWidth w).responses = s.responses := rfl
@[simp] theorem State.setPulseWidth_trace (s : State) (w : BitVec 16) : (s.setPulseWidth w).trace = s.trace := rfl

@[simp] theorem State.pwmTick_params (s : State) : s.pwmTick.params = s.params := rfl
@[simp] theorem State.pwmTick_powerOns (s : State) : s.pwmTick.powerOns = s.powerOns := rfl
@[simp] theorem State.pwmTick_qd (s : State) : s.pwmTick.qd = s.qd := rfl
@[simp] theorem State.pwmTick_tmr (s : State) : s.pwmTick.tmr = s.tmr := rfl
@[simp] theorem State.pwmTick_tk (s : State) : s.pwmTick.tk = s.tk := rfl
@[simp] theorem State.pwmTick_usCounter (s : State) : s.pwmTick.usCounter = s.usCounter := rfl
@[simp] theorem State.pwmTick_pwm (s : State) : s.pwmTick.pwm = s.pwm.tick s.params := rfl
@[simp] theorem State.pwmTick_lock (s : State) : s.pwmTick.lock = s.lock := rfl
@[simp] theorem State.pwmTick_blink (s : State) : s.pwmTick.blink = s.blink := rfl
@[simp] theorem State.pwmTick_hostChan (s : State) : s.pwmTick.hostChan = s.hostChan := rfl
@[simp] theorem State.pwmTick_eventChan (s : State) : s.pwmTick.eventChan = s.eventChan := rfl
@[simp] theorem State.pwmTick_turns (s : State) : s.pwmTick.turns = s.turns := rfl
@[simp] theorem State.pwmTick_responses (s : State) : s.pwmTick.responses = s.responses := rfl
@[simp] theorem State.pwmTick_trace (s : State) : s.pwmTick.trace = s.trace := rfl

@[simp] theorem State.clearEdge_params (s : State) : s.clearEdge.params = s.params := rfl
@[simp] theorem State.clearEdge_powerOns (s : State) : s.clearEdge.powerOns = s.powerOns := rfl
@[simp] theorem State.clearEdge_qd (s : State) : s.clearEdge.qd = { s.qd with dir := .stationary } := rfl
@[simp] theorem State.clearEdge_tmr (s : State) : s.clearEdge.tmr = s.tmr := rfl
@[simp] theorem State.clearEdge_tk (s : State) : s.clearEdge.tk = s.tk := rfl
@[simp] theorem State.clearEdge_usCounter (s : State) : s.clearEdge.usCounter = s.usCounter := rfl
@[simp] theorem State.clearEdge_pwm (s : State) : s.clearEdge.pwm = s.pwm := rfl
@[simp] theorem State.clearEdge_lock (s : State) : s.clearEdge.lock = s.lock := rfl
@[simp] theorem State.clearEdge_blink (s : State) : s.clearEdge.blink = s.blink := rfl
@[simp] theorem State.clearEdge_hostChan (s : State) : s.clearEdge.hostChan = s.hostChan := rfl
@[simp] theorem State.clearEdge_eventChan (s : State) : s.clearEdge.eventChan = s.eventChan := rfl
@[simp] theorem State.clearEdge_turns (s : State) : s.clearEdge.turns = s.turns := rfl
@[simp] theorem State.clearEdge_responses (s : State) : s.clearEdge.responses = s.responses := rfl
@[simp] theorem State.clearEdge_trace (s : State) : s.clearEdge.trace = s.trace := rfl

@[simp] theorem State.emitDisplay_params (s : State) : s.emitDisplay.params = s.params := rfl
@[simp] theorem State.emitDisplay_powerOns (s : State) : s.emitDisplay.powerOns = s.powerOns := rfl
@[simp] theorem State.emitDisplay_qd (s : State) : s.emitDisplay.qd = s.qd := rfl
@[simp] theorem State.emitDisplay_tmr (s : State) : s.emitDisplay.tmr = s.tmr := rfl
@[simp] theorem State.emitDisplay_tk (s : State) : s.emitDisplay.tk = s.tk := rfl
@[simp] theorem State.emitDisplay_usCounter (s : State) : s.emitDisplay.usCounter = s.usCounter := rfl
@[simp] theorem State.emitDisplay_pwm (s : State) : s.emitDisplay.pwm = s.pwm := rfl
@[simp] theorem State.emitDisplay_lock (s : State) : s.emitDisplay.lock = s.lock := rfl
@[simp] theorem State.emitDisplay_blink (s : State) : s.emitDisplay.blink = s.blink := rfl
@[simp] theorem State.emitDisplay_hostChan (s : State) : s.emitDisplay.hostChan = s.hostChan := rfl
@[simp] theorem State.emitDisplay_eventChan (s : State) : s.emitDisplay.eventChan = s.eventChan := rfl
@[simp] theorem State.emitDisplay_turns (s : State) : s.emitDisplay.turns = s.turns := rfl
@[simp] theorem State.emitDisplay_responses (s : State) : s.emitDisplay.responses = s.responses := rfl
@[simp] theorem State.emitDisplay_trace (s : State) : s.emitDisplay.trace = s.trace ++ [.display s.lock.displayRecord] := rfl

@[simp] theorem State.startBlink_params (s : State) (n : BitVec 3) : (s.startBlink n).params = s.params := rfl
@[simp] theorem State.startBlink_powerOns (s : State) (n : BitVec 3) : (s.startBlink n).powerOns = s.powerOns := rfl
@[simp] theorem State.startBlink_qd (s : State) (n : BitVec 3) : (s.startBlink n).qd = s.qd := rfl
@[simp] theorem State.startBlink_tmr (s : State) (n : BitVec 3) : (s.startBlink n).tmr = s.tmr := rfl
@[simp] theorem State.startBlink_tk (s : State) (n : BitVec 3) : (s.startBlink n).tk = s.tk := rfl
@[simp] theorem State.startBlink_usCounter (s : State) (n : BitVec 3) : (s.startBlink n).usCounter = s.usCounter := rfl
@[simp] theorem State.startBlink_pwm (s : State) (n : BitVec 3) : (s.startBlink n).pwm = s.pwm := rfl
@[simp] theorem State.startBlink_lock (s : State) (n : BitVec 3) : (s.startBlink n).lock = s.lock := rfl
@[simp] theorem State.startBlink_blink (s : State) (n : BitVec 3) : (s.startBlink n).blink = { s.blink with phases := n, start := s.usCounter, led := true } := rfl
@[simp] theorem State.startBlink_hostChan (s : State) (n : BitVec 3) : (s.startBlink n).hostChan = s.hostChan := rfl
@[simp] theorem State.startBlink_eventChan (s : State) (n : BitVec 3) : (s.startBlink n).eventChan = s.eventChan := rfl
@[simp] theorem State.startBlink_turns (s : State) (n : BitVec 3) : (s.startBlink n).turns = s.turns := rfl
@[simp] theorem State.startBlink_responses (s : State) (n : BitVec 3) : (s.startBlink n).responses = s.responses := rfl
@[simp] theorem State.startBlink_trace (s : State) (n : BitVec 3) : (s.startBlink n).trace = s.trace := rfl

@[simp] theorem State.resetFields_params (s : State) (c : Vector (BitVec 4) 3) : (s.resetFields c).params = s.params := rfl
@[simp] theorem State.resetFields_powerOns (s : State) (c : Vector (BitVec 4) 3) : (s.resetFields c).powerOns = s.powerOns := rfl
@[simp] theorem State.resetFields_qd (s : State) (c : Vector (BitVec 4) 3) : (s.resetFields c).qd = { s.qd with state := .unknown, last := .unknown, dir := .stationary } := rfl
@[simp] theorem State.resetFields_tmr (s : State) (c : Vector (BitVec 4) 3) : (s.resetFields c).tmr = #v[Timer.initial, Timer.initial] := rfl
@[simp] theorem State.resetFields_tk (s : State) (c : Vector (BitVec 4) 3) : (s.resetFields c).tk = #v[Ticker.initial, Ticker.initial] := rfl
@[simp] theorem State.resetFields_usCounter (s : State) (c : Vector (BitVec 4) 3) : (s.resetFields c).usCounter = 0#32 := rfl
@[simp] theorem State.resetFields_pwm (s : State) (c : Vector (BitVec 4) 3) : (s.resetFields c).pwm = Pwm.initial s.params := rfl
@[simp] theorem State.resetFields_lock (s : State) (c : Vector (BitVec 4) 3) : (s.resetFields c).lock = Lock.initial c := rfl
@[simp] theorem State.resetFields_blink (s : State) (c : Vector (BitVec 4) 3) : (s.resetFields c).blink = Blink.initial := rfl
@[simp] theorem State.resetFields_hostChan (s : State) (c : Vector (BitVec 4) 3) : (s.resetFields c).hostChan = s.hostChan := rfl
@[simp] theorem State.resetFields_eventChan (s : State) (c : Vector (BitVec 4) 3) : (s.resetFields c).eventChan = s.eventChan := rfl
@[simp] theorem State.resetFields_turns (s : State) (c : Vector (BitVec 4) 3) : (s.resetFields c).turns = s.turns := rfl
@[simp] theorem State.resetFields_responses (s : State) (c : Vector (BitVec 4) 3) : (s.resetFields c).responses = s.responses := rfl
@[simp] theorem State.resetFields_trace (s : State) (c : Vector (BitVec 4) 3) : (s.resetFields c).trace = s.trace := rfl

end Sys2Proof.Machine
end

