-- ==== Sys2Proof/Laws/Ops.lean ====
section
/-! SUPPORT. For each shared operation of Machine/Ops.lean, what it can do, said once. -/

namespace Sys2Proof.Machine

/-! ## The two kinds of instruction -/

/-- All a host command can do: nothing while busy, its run otherwise. -/
theorem hostCommand_next {run : State → State} {s t : State} :
    hostCommand run s = .next t ↔ (s.busy = true ∧ t = s) ∨ (s.busy = false ∧ t = run s) := by
  cases h : s.busy <;> simp [hostCommand, h, eq_comm]

theorem hostCommand_of_busy {run : State → State} {s : State} (h : s.busy = true) :
    hostCommand run s = .next s := by
  simp [hostCommand, h]

theorem hostCommand_of_not_busy {run : State → State} {s : State} (h : s.busy = false) :
    hostCommand run s = .next (run s) := by
  simp [hostCommand, h]

/-- All an event can do. -/
theorem eventStep_next {run : State → State} {s t : State} : eventStep run s = .next t ↔ t = run s := by
  simp [eventStep, eq_comm]

/-- `busy` depends on the blink group alone. -/
theorem State.busy_of_blink_eq {s t : State} (h : t.blink = s.blink) : t.busy = s.busy := by
  simp [State.busy, h]

/-! ## The PWM tick -/

@[simp] theorem Pwm.countDown_pulseWidth (p : Params) (w : Pwm) : (w.countDown p).pulseWidth = w.pulseWidth := rfl

@[simp] theorem Pwm.countDown_out (p : Params) (w : Pwm) : (w.countDown p).out = w.out := rfl

@[simp] theorem Pwm.risingTest_pulseWidth (p : Params) (w : Pwm) :
    (w.risingTest p).pulseWidth = w.pulseWidth := by
  unfold Pwm.risingTest; split <;> rfl

@[simp] theorem Pwm.fallingTest_pulseWidth (w : Pwm) : w.fallingTest.pulseWidth = w.pulseWidth := by
  unfold Pwm.fallingTest; split <;> rfl

/-- The PWM tick never writes the servo register (10_state.md R69). -/
@[simp] theorem Pwm.tick_pulseWidth (p : Params) (w : Pwm) : (w.tick p).pulseWidth = w.pulseWidth := by
  simp [Pwm.tick]

/-! ## The dispatch of a handler: it writes the PWM group or the trace, nothing else -/

/-- `t` is `s` but for the PWM group and a longer trace, with the servo register unchanged. -/
def State.HandlerFrame (s t : State) : Prop :=
  t = { s with pwm := t.pwm, trace := t.trace } ∧ t.pwm.pulseWidth = s.pwm.pulseWidth ∧ s.trace <+: t.trace

theorem State.HandlerFrame.refl (s : State) : s.HandlerFrame s := ⟨rfl, rfl, List.prefix_rfl⟩

theorem State.HandlerFrame.trans {s t u : State} (h : s.HandlerFrame t) (k : t.HandlerFrame u) :
    s.HandlerFrame u := by
  obtain ⟨h1, h2, h3⟩ := h
  obtain ⟨k1, k2, k3⟩ := k
  refine ⟨?_, k2.trans h2, h3.trans k3⟩
  rw [k1, h1]

section
variable {s t : State} (h : s.HandlerFrame t)
include h

theorem State.HandlerFrame.params : t.params = s.params := by rw [h.1]
theorem State.HandlerFrame.powerOns : t.powerOns = s.powerOns := by rw [h.1]
theorem State.HandlerFrame.qd : t.qd = s.qd := by rw [h.1]
theorem State.HandlerFrame.tmr : t.tmr = s.tmr := by rw [h.1]
theorem State.HandlerFrame.tk : t.tk = s.tk := by rw [h.1]
theorem State.HandlerFrame.usCounter : t.usCounter = s.usCounter := by rw [h.1]
theorem State.HandlerFrame.lock : t.lock = s.lock := by rw [h.1]
theorem State.HandlerFrame.blink : t.blink = s.blink := by rw [h.1]
theorem State.HandlerFrame.hostChan : t.hostChan = s.hostChan := by rw [h.1]
theorem State.HandlerFrame.eventChan : t.eventChan = s.eventChan := by rw [h.1]
theorem State.HandlerFrame.turns : t.turns = s.turns := by rw [h.1]
theorem State.HandlerFrame.responses : t.responses = s.responses := by rw [h.1]

end

/-- All a handler can do: the PWM tick for id 0, a CALLBACK for every other id. -/
theorem State.runHandler_cases (s : State) (src : Source) (h : BitVec 8) :
    (h = 0#8 ∧ s.runHandler src h = s.pwmTick) ∨ (h ≠ 0#8 ∧ s.runHandler src h = s.emit (.callback src h)) := by
  by_cases hh : h = 0#8 <;> simp [State.runHandler, hh]

theorem State.runHandler_frame (s : State) (src : Source) (h : BitVec 8) :
    s.HandlerFrame (s.runHandler src h) := by
  rcases s.runHandler_cases src h with ⟨-, e⟩ | ⟨-, e⟩ <;> rw [e]
  · exact ⟨rfl, by simp, by simp⟩
  · exact ⟨rfl, by simp, by simp⟩

theorem State.dispatch_frame (s : State) (t : Fin 2) (k : Fin 3) : s.HandlerFrame (s.dispatch t k) := by
  unfold State.dispatch
  split
  · exact s.runHandler_frame _ _
  · exact .refl s

theorem State.dispatchTicker_frame (s : State) (t : Fin 2) : s.HandlerFrame (s.dispatchTicker t) :=
  s.runHandler_frame _ _

/-- A handler is one PWM tick exactly when it is handler 0 (42_pwm_servo.md R180, R187). -/
theorem State.runHandler_pwm (s : State) (src : Source) (h : BitVec 8) :
    (s.runHandler src h).pwm = if h = 0#8 then s.pwm.tick s.params else s.pwm := by
  unfold State.runHandler; split <;> rfl

theorem State.dispatch_pwm (s : State) (t : Fin 2) (k : Fin 3) :
    (s.dispatch t k).pwm = if s.tmr[t.val].handler[k.val] = some 0#8 then s.pwm.tick s.params else s.pwm := by
  unfold State.dispatch
  split
  · rename_i h e; simp [State.runHandler_pwm, e]
  · rename_i e; simp [e]

theorem State.dispatchTicker_pwm (s : State) (t : Fin 2) :
    (s.dispatchTicker t).pwm = if s.tk[t.val].handler = 0#8 then s.pwm.tick s.params else s.pwm :=
  s.runHandler_pwm _ _

/-! ## The blink -/

/-- All `blink_advance` can do: nothing, end a phase that is not the last, or end the last one, with the pending display
record put out. -/
theorem State.blinkAdvance_cases (s : State) :
    s.blinkAdvance = s ∨
    (s.blink.phases ≠ 0#3 ∧ s.blink.phases ≠ 1#3 ∧
      s.blinkAdvance = { s with blink := { s.blink with phases := s.blink.phases - 1#3, start := s.usCounter,
                                                        led := (s.blink.phases - 1#3).toNat % 2 == 0 } }) ∨
    (s.blink.phases = 1#3 ∧
      s.blinkAdvance = { s with blink := { led := false, phases := 0#3, start := s.usCounter, pendingDisplay := false },
                                trace := s.trace ++
                                  (if s.blink.pendingDisplay then [.display s.lock.displayRecord] else []) }) := by
  unfold State.blinkAdvance
  split
  · rename_i h
    have h0 : s.blink.phases ≠ 0#3 := by
      intro e; simp [State.busy, e] at h
    right
    by_cases h1 : s.blink.phases = 1#3
    · right
      refine ⟨h1, ?_⟩
      cases hp : s.blink.pendingDisplay <;> simp [State.endPhase, h1, hp, State.emitDisplay, State.emit]
    · left
      have h2 : s.blink.phases - 1#3 ≠ 0#3 := by bv_omega
      exact ⟨h0, h1, by simp [State.endPhase, h2]⟩
  · exact .inl rfl

/-- `blink_advance` writes the blink group and the trace alone. -/
theorem State.blinkAdvance_frame (s : State) :
    s.blinkAdvance = { s with blink := s.blinkAdvance.blink, trace := s.blinkAdvance.trace } ∧
      s.trace <+: s.blinkAdvance.trace := by
  rcases s.blinkAdvance_cases with e | ⟨-, -, e⟩ | ⟨-, e⟩ <;> rw [e] <;> exact ⟨rfl, by simp⟩

end Sys2Proof.Machine
end

