-- ==== Sys2Proof/Laws/Lock.lean ====
section
/-! SUPPORT. What the procedures of the lock controller can do, said once. -/

namespace Sys2Proof.Machine

/-- `t` is `s` but for the lock group, the blink group, the pending edge (cleared or kept) and the servo register. -/
def State.LockFrame (s t : State) : Prop :=
  t = { s with lock := t.lock, blink := t.blink, qd := t.qd, pwm := t.pwm } ∧
  (t.qd = s.qd ∨ t.qd = { s.qd with dir := .stationary }) ∧
  t.pwm = { s.pwm with pulseWidth := t.pwm.pulseWidth }

theorem State.LockFrame.refl (s : State) : s.LockFrame s := ⟨rfl, .inl rfl, rfl⟩

theorem State.LockFrame.trans {s t u : State} (h : s.LockFrame t) (k : t.LockFrame u) : s.LockFrame u := by
  obtain ⟨h1, h2, h3⟩ := h
  obtain ⟨k1, k2, k3⟩ := k
  refine ⟨?_, ?_, ?_⟩
  · rw [k1, h1]
  · rcases h2 with e | e <;> rcases k2 with f | f <;> simp [f, e]
  · rw [k3, h3]

theorem State.setLock_frame (s : State) (l : Lock) : s.LockFrame (s.setLock l) := ⟨rfl, .inl rfl, rfl⟩

theorem State.setPulseWidth_frame (s : State) (w : BitVec 16) : s.LockFrame (s.setPulseWidth w) :=
  ⟨rfl, .inl rfl, rfl⟩

theorem State.clearEdge_frame (s : State) : s.LockFrame s.clearEdge := ⟨rfl, .inr rfl, rfl⟩

theorem State.startBlink_frame (s : State) (n : BitVec 3) : s.LockFrame (s.startBlink n) := ⟨rfl, .inl rfl, rfl⟩

/-- The commit is valid exactly under the three conditions of 43_lock_fsm.md R230. -/
theorem Lock.commitValid_iff (l : Lock) :
    l.commitValid = true ↔ l.chgIdx = 6 ∧ (∀ k : Fin 3, l.chgSlot[k.val] = l.chgSlot[k.val + 3]) ∧
      ∀ k : Fin 6, l.chgSlot[k.val].toNat ≤ 15 := by
  simp only [Lock.commitValid, Bool.and_eq_true, beq_iff_eq, List.all_eq_true, decide_eq_true_eq, Vector.mem_toList_iff,
    and_assoc]
  constructor
  · rintro ⟨h6, h0, h1, h2, hv⟩
    refine ⟨Fin.ext h6, fun k => ?_, fun k => hv _ (Vector.getElem_mem k.isLt)⟩
    obtain rfl | rfl | rfl : k = 0 ∨ k = 1 ∨ k = 2 := by omega
    exacts [h0, h1, h2]
  · rintro ⟨h6, he, hv⟩
    refine ⟨by rw [h6]; rfl, he 0, he 1, he 2, fun v hm => ?_⟩
    obtain ⟨i, hi, rfl⟩ := Vector.mem_iff_getElem.1 hm
    exact hv ⟨i, hi⟩

/-- All `evaluate` can do (43_lock_fsm.md R218). -/
theorem State.evaluate_cases (s : State) :
    (s.lock.checkCombination = true ∧ s.evaluate = s.enterUnlocked) ∨
    (s.lock.checkCombination = false ∧ s.lock.badTries = 2#2 ∧
      s.evaluate = s.setLock { s.lock with badTries := 3#2, lkState := .alarmed }) ∨
    (s.lock.checkCombination = false ∧ s.lock.badTries ≠ 2#2 ∧
      s.evaluate =
        (s.setLock { s.lock.clearProgress with badTries := s.lock.badTries + 1#2 }).startBlink 4#3) := by
  cases hc : s.lock.checkCombination
  · right
    by_cases hb : s.lock.badTries = 2#2
    · left; simp [State.evaluate, hc, hb]
    · right
      have : s.lock.badTries + 1#2 ≠ 3#2 := by bv_omega
      simp [State.evaluate, hc, hb, this, Lock.clearProgress]
  · left; simp [State.evaluate, hc]

theorem State.enterUnlocked_frame (s : State) : s.LockFrame s.enterUnlocked :=
  (s.setLock_frame _).trans (State.setPulseWidth_frame _ _)

theorem State.enterLocked_frame (s : State) : s.LockFrame s.enterLocked :=
  (s.setLock_frame _).trans (State.setPulseWidth_frame _ _)

theorem State.evaluate_frame (s : State) : s.LockFrame s.evaluate := by
  rcases s.evaluate_cases with ⟨-, e⟩ | ⟨-, -, e⟩ | ⟨-, -, e⟩ <;> rw [e]
  · exact s.enterUnlocked_frame
  · exact s.setLock_frame _
  · exact (s.setLock_frame _).trans (State.startBlink_frame _ _)

theorem State.lockedStep_frame (s : State) (e : Dir) (pl : Bool) : s.LockFrame (s.lockedStep e pl) := by
  unfold State.lockedStep
  dsimp only
  split
  · exact (s.setLock_frame _).trans (State.evaluate_frame _)
  · exact s.setLock_frame _

theorem State.unlockedStep_frame (s : State) (pboth pr sw : Bool) : s.LockFrame (s.unlockedStep pboth pr sw) := by
  unfold State.unlockedStep
  split
  · exact (s.setLock_frame _).trans (State.enterLocked_frame _)
  · split
    · exact s.setLock_frame _
    · exact .refl s

/-- All the procedure of an invocation can write: the lock group, the blink group, the pending edge and the servo register
(10_state.md R69). -/
theorem State.lockProcedure_frame (s : State) (pl pr pboth sw : Bool) (rel : Option (BitVec 4)) :
    s.LockFrame (s.lockProcedure pl pr pboth sw rel) := by
  unfold State.lockProcedure
  split
  · exact State.startBlink_frame _ _
  · exact s.clearEdge_frame.trans (State.lockedStep_frame _ _ _)
  · exact s.clearEdge_frame.trans (State.unlockedStep_frame _ _ _ _)
  · exact s.clearEdge_frame.trans (State.setLock_frame _ _)

/-- All the end of an invocation can do (43_lock_fsm.md R200, R236). -/
theorem State.finishInvocation_cases (s : State) :
    (s.busy = true ∧ s.finishInvocation = { s with blink := { s.blink with pendingDisplay := true } }) ∨
    (s.busy = false ∧ s.finishInvocation = s.emitDisplay) := by
  cases h : s.busy <;> simp [State.finishInvocation, h]

/-- All `take edge` can do (43_lock_fsm.md R210). -/
theorem Lock.takeEdge_cases (l : Lock) (e : Dir) :
    (e = .stationary ∧ l.takeEdge e = l) ∨
    (e ≠ .stationary ∧ e = l.expected ∧ l.takeEdge e = l.move e) ∨
    (e ≠ .stationary ∧ e ≠ l.expected ∧ ∃ h : l.stage.val < 2, l.takeEdge e = l.advanceStage h) ∨
    (e ≠ .stationary ∧ e ≠ l.expected ∧ l.stage.val = 2 ∧ l.takeEdge e = l.clearProgress) := by
  by_cases h0 : e = .stationary
  · exact .inl ⟨h0, by simp [Lock.takeEdge, h0]⟩
  · by_cases h1 : e = l.expected
    · exact .inr (.inl ⟨h0, h1, by rw [Lock.takeEdge, if_neg h0, if_pos h1]⟩)
    · by_cases h2 : l.stage.val < 2
      · exact .inr (.inr (.inl ⟨h0, h1, h2, by rw [Lock.takeEdge, if_neg h0, if_neg h1, dif_pos h2]⟩))
      · exact .inr (.inr (.inr ⟨h0, h1, by omega, by rw [Lock.takeEdge, if_neg h0, if_neg h1, dif_neg h2]⟩))

end Sys2Proof.Machine
end

