-- ==== Sys2Proof/Laws/PerInstr.lean ====
section
/-! SUPPORT. The family LengthFromOpcode of LAWS.json, one lemma per constructor of Instr: the opcode of an instruction
alone gives the length of its encoding, and its first word carries that opcode (30_encoding.md R90, R93). -/

namespace Sys2Proof.Laws.LengthFromOpcode

def Statement (i : Instr) : Prop :=
  (encode i).length = wordCount (opcode i) ∧ (encode i).head?.map opcField = some (opcode i)

theorem qdSample : Statement .qdSample := ⟨rfl, by decide⟩
theorem qdGetdir : Statement .qdGetdir := ⟨rfl, by decide⟩
theorem tmrConfig (tid : BitVec 8) (period : BitVec 32) : Statement (.tmrConfig tid period) :=
  ⟨rfl, by simp [encode]⟩
theorem tmrRegisr (tid : BitVec 8) (slot : BitVec 4) (hid : BitVec 8) : Statement (.tmrRegisr tid slot hid) :=
  ⟨rfl, by simp [encode]⟩
theorem tmrReset (tid : BitVec 8) : Statement (.tmrReset tid) := ⟨rfl, by simp [encode]⟩
theorem tmrRegper (tid hid : BitVec 8) (period : BitVec 32) : Statement (.tmrRegper tid hid period) :=
  ⟨rfl, by simp [encode]⟩
theorem tmrResetper (tid : BitVec 8) : Statement (.tmrResetper tid) := ⟨rfl, by simp [encode]⟩
theorem srvCenter : Statement .srvCenter := ⟨rfl, by decide⟩
theorem srvCw : Statement .srvCw := ⟨rfl, by decide⟩
theorem srvCcw : Statement .srvCcw := ⟨rfl, by decide⟩
theorem lockCtrl (bl br sw kv : Bool) (key : BitVec 4) : Statement (.lockCtrl bl br sw kv key) :=
  ⟨rfl, by simp [encode]⟩
theorem lockRstcomb : Statement .lockRstcomb := ⟨rfl, by decide⟩
theorem lockCheck : Statement .lockCheck := ⟨rfl, by decide⟩
theorem evQdedge (code : BitVec 2) : Statement (.evQdedge code) := ⟨rfl, by simp [encode]⟩
theorem evTmrtick (tid : BitVec 8) : Statement (.evTmrtick tid) := ⟨rfl, by simp [encode]⟩
theorem evUstick : Statement .evUstick := ⟨rfl, by decide⟩
theorem evPorst : Statement .evPorst := ⟨rfl, by decide⟩
theorem evSoftrst : Statement .evSoftrst := ⟨rfl, by decide⟩

end Sys2Proof.Laws.LengthFromOpcode
end

