-- ==== Sys2Proof/Laws/Timer.lean ====
section
/-! SUPPORT. What the shared operations of the timer driver can do, said once. -/

namespace Sys2Proof.Machine

/-! ## Operands -/

theorem timerIndex_eq_some {tid : BitVec 8} {t : Fin 2} : timerIndex tid = some t ↔ tid.toNat = t.val := by
  unfold timerIndex
  split
  · simp [Fin.ext_iff]
  · have := t.isLt
    simp; omega

theorem timerIndex_eq_none {tid : BitVec 8} : timerIndex tid = none ↔ 2 ≤ tid.toNat := by
  unfold timerIndex; split <;> simp <;> omega

theorem Timer.nslots_le (tm : Timer) : tm.nslots ≤ 3 := by
  unfold Timer.nslots; split <;> omega

theorem slotIndex_eq_some {n : Nat} {slot : BitVec 4} {k : Fin 3} :
    slotIndex n slot = some k ↔ slot.toNat = k.val ∧ slot.toNat < n := by
  unfold slotIndex
  have := k.isLt
  split
  · rename_i h; simp [Fin.ext_iff, h.1]
  · simp; omega

theorem slotIndex_eq_none {tm : Timer} {slot : BitVec 4} :
    slotIndex tm.nslots slot = none ↔ tm.nslots ≤ slot.toNat := by
  have := tm.nslots_le
  unfold slotIndex; split <;> simp <;> omega

/-! ## The prescaler search -/

/-- The counts tried for one prescaler are the floor and the ceiling of the exact count (41_timer.md R142). -/
theorem mem_countsFor {f P p c : Nat} (hp : 0 < p) :
    c ∈ countsFor f P p ↔
      c = P * f / (p * 1000000) ∨ c = (P * f + (p * 1000000 - 1)) / (p * 1000000) := by
  have hd : 0 < p * 1000000 := by omega
  unfold countsFor
  generalize p * 1000000 = d at *
  generalize P * f = n at *
  have hdiv := Nat.div_add_mod n d
  have hmod := Nat.mod_lt n hd
  have key : (n + (d - 1)) / d = if n % d = 0 then n / d else n / d + 1 := by
    split
    · rename_i h0
      apply Nat.div_eq_of_lt_le
      · rw [Nat.mul_comm]; omega
      · rw [Nat.add_mul, Nat.mul_comm]; omega
    · rename_i h0
      apply Nat.div_eq_of_lt_le
      · rw [Nat.add_mul, Nat.mul_comm]; omega
      · rw [Nat.add_mul, Nat.add_mul, Nat.mul_comm]; omega
  by_cases h0 : n % d = 0 <;> simp [h0, key]

/-- The search answers a candidate of least error, if there is one; it is the first of that error. -/
theorem foldl_keepBetter (l : List Candidate) (b : Candidate) :
    ∃ c, l.foldl keepBetter (some b) = some c ∧
      ((c = b ∧ ∀ d ∈ l, b.err ≤ d.err) ∨
        ∃ l1 l2, l = l1 ++ c :: l2 ∧ c.err < b.err ∧ (∀ d ∈ l1, c.err < d.err) ∧ ∀ d ∈ l2, c.err ≤ d.err) := by
  induction l generalizing b with
  | nil => exact ⟨b, rfl, .inl ⟨rfl, by simp⟩⟩
  | cons a l ih =>
    by_cases hab : a.err < b.err
    · obtain ⟨c, hc, h⟩ := ih a
      refine ⟨c, by simpa [keepBetter, hab] using hc, .inr ?_⟩
      rcases h with ⟨rfl, h⟩ | ⟨l1, l2, rfl, h1, h2, h3⟩
      · exact ⟨[], l, rfl, hab, by simp, h⟩
      · refine ⟨a :: l1, l2, rfl, h1.trans hab, ?_, h3⟩
        rintro d (_ | ⟨_, hd⟩)
        exacts [h1, h2 d hd]
    · obtain ⟨c, hc, h⟩ := ih b
      refine ⟨c, by simpa [keepBetter, hab] using hc, ?_⟩
      rcases h with ⟨rfl, h⟩ | ⟨l1, l2, rfl, h1, h2, h3⟩
      · refine .inl ⟨rfl, ?_⟩
        rintro d (_ | ⟨_, hd⟩)
        exacts [by omega, h d hd]
      · refine .inr ⟨a :: l1, l2, rfl, h1, ?_, h3⟩
        rintro d (_ | ⟨_, hd⟩)
        exacts [by omega, h2 d hd]

/-- All the search can answer: nothing when there is no candidate, else the first candidate of least error
(41_timer.md R142, R143). -/
theorem searchBest_cases (ps : List Nat) (f w P : Nat) :
    (searchBest ps f w P = none ∧ candidates ps f w P = []) ∨
    ∃ c l1 l2, searchBest ps f w P = some c ∧ candidates ps f w P = l1 ++ c :: l2 ∧
      (∀ d ∈ l1, c.err < d.err) ∧ ∀ d ∈ l2, c.err ≤ d.err := by
  unfold searchBest
  cases candidates ps f w P with
  | nil => exact .inl ⟨rfl, rfl⟩
  | cons b l =>
    right
    obtain ⟨c, hc, ⟨rfl, h⟩ | ⟨l1, l2, rfl, h1, h2, h3⟩⟩ := foldl_keepBetter l b
    · exact ⟨c, [], l, hc, rfl, by simp, h⟩
    · refine ⟨c, b :: l1, l2, hc, rfl, ?_, h3⟩
      rintro d (_ | ⟨_, hd⟩)
      exacts [h1, h2 d hd]

/-- What the search answers is a candidate of the list (41_timer.md R144, R165). -/
theorem searchBest_mem {ps : List Nat} {f w P : Nat} {c : Candidate} (h : searchBest ps f w P = some c) :
    c.presc ∈ ps ∧ 1 ≤ c.count ∧ c.count ≤ 2 ^ w := by
  rcases searchBest_cases ps f w P with ⟨h0, -⟩ | ⟨d, l1, l2, hd, hl, -, -⟩
  · simp [h0] at h
  · obtain rfl : d = c := by simpa [hd] using h
    have hm : d ∈ candidates ps f w P := by simp [hl]
    simp only [candidates, candidatesFor, List.mem_flatMap, List.mem_map, List.mem_filter,
      decide_eq_true_eq] at hm
    obtain ⟨p, hp, n, ⟨-, hn⟩, rfl⟩ := hm
    exact ⟨hp, hn⟩

/-! ## Counting and dispatching -/

theorem State.fireSlot_frame (t : Fin 2) (s : State) (k : Fin 3) : s.HandlerFrame (s.fireSlot t k) := by
  unfold State.fireSlot
  split
  · exact s.dispatch_frame t k
  · exact .refl s

theorem State.foldl_fireSlot_frame (t : Fin 2) (l : List (Fin 3)) (s : State) :
    s.HandlerFrame (l.foldl (State.fireSlot t) s) := by
  induction l generalizing s with
  | nil => exact .refl s
  | cons k l ih => exact (s.fireSlot_frame t k).trans (ih _)

/-- The PWM ticks of a list of fired slots: one for each enabled slot that carries handler 0 (42_pwm_servo.md R187). -/
theorem State.foldl_fireSlot_pwm (t : Fin 2) (l : List (Fin 3)) (s : State) :
    (l.foldl (State.fireSlot t) s).pwm = (Pwm.tick s.params)^[l.countP fun k =>
      s.tmr[t.val].ie.getLsbD k.val && decide (s.tmr[t.val].handler[k.val] = some 0#8)] s.pwm := by
  induction l generalizing s with
  | nil => rfl
  | cons k l ih =>
    have fr := s.fireSlot_frame t k
    have e : (s.fireSlot t k).pwm = (Pwm.tick s.params)^[if (s.tmr[t.val].ie.getLsbD k.val &&
        decide (s.tmr[t.val].handler[k.val] = some 0#8)) = true then 1 else 0] s.pwm := by
      unfold State.fireSlot
      cases s.tmr[t.val].ie.getLsbD k.val
      · simp
      · by_cases h : s.tmr[t.val].handler[k.val] = some 0#8 <;> simp [State.dispatch_pwm, h]
    rw [List.foldl_cons, ih, fr.params, fr.tmr, e, List.countP_cons, Function.iterate_add_apply]

/-- All EV.TMRTICK can do: nothing for an invalid id; otherwise the counter moves and handlers run. -/
theorem evTmrtickRun_cases (tid : BitVec 8) (s : State) :
    (timerIndex tid = none ∧ evTmrtickRun tid s = s) ∨
    ∃ t, timerIndex tid = some t ∧
      (s.setTimer t { s.tmr[t.val] with tcnt := s.tmr[t.val].nextCount s.params.timerWidth[t.val] }).HandlerFrame
        (evTmrtickRun tid s) := by
  unfold evTmrtickRun
  cases h : timerIndex tid with
  | none => exact .inl ⟨rfl, rfl⟩
  | some t => exact .inr ⟨t, rfl, State.foldl_fireSlot_frame t _ _⟩

/-- The record of a ticker after one microsecond (41_timer.md R163). -/
def Ticker.ticked (k : Ticker) : Ticker :=
  if k.attached then
    if k.period.toNat ≤ (k.elapsed + 1#32).toNat then { k with elapsed := 0#32 }
    else { k with elapsed := k.elapsed + 1#32 }
  else k

/-- All one microsecond of a ticker can do: its phase moves and its handler may run. -/
theorem State.tickTicker_frame (s : State) (t : Fin 2) :
    (s.setTicker t s.tk[t.val].ticked).HandlerFrame (s.tickTicker t) := by
  unfold State.tickTicker Ticker.ticked
  split
  · split
    · rename_i h1 h2
      simp only [h1, h2, if_true]
      exact State.dispatchTicker_frame _ t
    · rename_i h1 h2
      simp only [h1, h2, if_true, if_false]
      exact .refl _
  · rename_i h1
    have e : s.setTicker t s.tk[t.val] = s := by simp [State.setTicker]
    simp only [h1, Bool.false_eq_true, if_false]
    rw [e]
    exact .refl s

/-- One microsecond of a ticker is a PWM tick exactly when its period is over and it carries handler 0. -/
theorem State.tickTicker_pwm (s : State) (t : Fin 2) :
    (s.tickTicker t).pwm =
      if s.tk[t.val].attached = true ∧ s.tk[t.val].period.toNat ≤ (s.tk[t.val].elapsed + 1#32).toNat ∧
          s.tk[t.val].handler = 0#8 then s.pwm.tick s.params
      else s.pwm := by
  unfold State.tickTicker
  dsimp only
  split
  · rename_i ha
    split
    · rename_i hd; simp [State.dispatchTicker_pwm, ha, hd, -BitVec.toNat_add]
    · rename_i hd; simp [hd, -BitVec.toNat_add]
  · rename_i ha; simp [ha]

end Sys2Proof.Machine
end

