-- ==== Sys2Proof/Laws/Step.lean ====
section
/-! SUPPORT. What one step can do, said once; statements about steps are derived from it. -/

namespace Sys2Proof.Machine

/-- What each instruction does to the state when it is not held. -/
def effect : Instr → State → State
  | .qdSample, s => s.respond .ok (some (.two s.qd.pins))
  | .qdGetdir, s => s.clearEdge.respond .ok (some (.two s.qd.dir.code))
  | .tmrConfig tid period, s => tmrConfigRun tid period s
  | .tmrRegisr tid slot hid, s => tmrRegisrRun tid slot hid s
  | .tmrReset tid, s => tmrResetRun tid s
  | .tmrRegper tid hid period, s => tmrRegperRun tid hid period s
  | .tmrResetper tid, s => tmrResetperRun tid s
  | .srvCenter, s => (s.setPulseWidth servoCenterUs).respond .ok none
  | .srvCw, s => (s.setPulseWidth (servoCwUs s.params)).respond .ok none
  | .srvCcw, s => (s.setPulseWidth (servoCcwUs s.params)).respond .ok none
  | .lockCtrl bl br sw kv key, s => lockCtrlRun bl br sw (keyOperand kv key) s
  | .lockRstcomb, s => (s.setLock { s.lock with comb := defaultComb }).respond .ok none
  | .lockCheck, s => s.respond .ok (some (.one (BitVec.ofBool s.lock.checkCombination)))
  | .evQdedge code, s => { s with qd := s.qd.sample code }
  | .evTmrtick tid, s => evTmrtickRun tid s
  | .evUstick, s => evUstickRun s
  | .evPorst, s => { s.resetFields (drawnComb s.powerOns) with powerOns := s.powerOns + 1 }
  | .evSoftrst, s => s.resetFields s.lock.comb

/-- All an instruction can do: a host command is held while `busy`; everything else has its effect (60_exceptions.md
R270). -/
theorem exec_eq (i : Instr) (s : State) :
    exec i s = if channelOf (opcode i) = .host then hostCommand (effect i) s else eventStep (effect i) s := by
  cases i <;> rfl

theorem exec_cases {i : Instr} {s t : State} (h : exec i s = .next t) :
    (channelOf (opcode i) = .host ∧ s.busy = true ∧ t = s) ∨
    ((channelOf (opcode i) = .event ∨ s.busy = false) ∧ t = effect i s) := by
  rw [exec_eq] at h
  split at h
  · rename_i hc
    rcases hostCommand_next.1 h with ⟨hb, rfl⟩ | ⟨hb, rfl⟩
    · exact .inl ⟨hc, hb, rfl⟩
    · exact .inr ⟨.inr hb, rfl⟩
  · rename_i hc
    refine .inr ⟨.inl ?_, eventStep_next.1 h⟩
    cases h : channelOf (opcode i)
    · exact absurd h hc
    · rfl

/-- No instruction faults or is refused (60_exceptions.md R281). -/
theorem exec_next (i : Instr) (s : State) : ∃ t, exec i s = .next t := by
  cases i <;> exact ⟨_, rfl⟩

@[simp] theorem State.afterTurn_channel (s : State) (rest : List Channel) (ch : Channel) :
    (s.afterTurn rest).channel ch = s.channel ch := by
  cases ch <;> rfl

theorem State.afterTurn_holds (s : State) (rest : List Channel) (i : Instr) :
    (s.afterTurn rest).holds i = s.holds i := rfl

/-- All a step can do: no turn is left; the channel holds no whole command; its word is illegal; or its instruction runs,
consumed unless it is held. -/
theorem step_cases {s t : State} (h : step s = .next t) :
    (s.turns = [] ∧ t = s) ∨
    ∃ ch rest, s.turns = ch :: rest ∧
      ((decode (s.channel ch) = .incomplete ∧ t = s.afterTurn rest) ∨
        (∃ c why n, decode (s.channel ch) = .illegal c why n ∧
          t = ((s.afterTurn rest).consume ch n).answerIllegal c) ∨
        ∃ i n, decode (s.channel ch) = .op i n ∧
          exec i (if (s.afterTurn rest).holds i then s.afterTurn rest
                  else (s.afterTurn rest).consume ch n) = .next t) := by
  unfold step State.fetch at h
  cases hs : s.turns with
  | nil => left; simpa [hs, eq_comm] using h
  | cons ch rest =>
    right
    refine ⟨ch, rest, rfl, ?_⟩
    cases hd : decode (s.channel ch) with
    | op i n =>
      exact .inr (.inr ⟨i, n, rfl, by simpa [hs, State.serve, hd] using h⟩)
    | illegal c why n =>
      exact .inr (.inl ⟨c, why, n, rfl, by simpa [hs, State.serve, hd, eq_comm] using h⟩)
    | incomplete => exact .inl ⟨rfl, by simpa [hs, State.serve, hd, eq_comm] using h⟩

end Sys2Proof.Machine
end

