-- ==== Sys2Proof/Laws/Runs.lean ====
section
/-! SUPPORT. Runs, and PWM ticks with servo writes between them, taken apart at their last element. -/

namespace Sys2Proof.Machine

theorem execAll_concat {l : List Instr} {i : Instr} {s t : State} (h : execAll l s = .next t) :
    execAll (l ++ [i]) s = exec i t := by
  induction l generalizing s with
  | nil =>
    obtain rfl : s = t := by simpa [execAll] using h
    obtain ⟨u, hu⟩ := exec_next i s
    simp [execAll, hu]
  | cons j l ih =>
    obtain ⟨u, hu⟩ := exec_next j s
    simp only [List.cons_append, execAll, hu] at h ⊢
    exact ih h

@[simp] theorem Pwm.ticksWith_nil (p : Params) (w : Pwm) : w.ticksWith p [] = w := rfl

@[simp] theorem Pwm.ticksWith_concat (p : Params) (w : Pwm) (vs : List (BitVec 16)) (v : BitVec 16) :
    w.ticksWith p (vs ++ [v]) = Pwm.tick p { w.ticksWith p vs with pulseWidth := v } := by
  simp [Pwm.ticksWith]

end Sys2Proof.Machine
end

