-- ==== Sys2Proof/Tests/Slice0.lean ====
section
/-! SUPPORT. The model's own tests. Expected results are taken from the encoding tables of 30_encoding.md, from the vectors
of 95_test_vectors.md (named in the comments), or worked out by hand from the rules. Then, for every statement of
Certificates/Slice0 that has hypotheses, a state and operands that meet all of them. -/

namespace Sys2Proof.Tests

open Sys2Proof Sys2Proof.Machine

/-! ## Helpers -/

/-- The example configuration EX (00_scope.md R24). -/
def ex : Params :=
  { fClkHz := 16000000
    timerWidth := #v[8, 16]
    prescalers := #v[[1, 8, 64, 256, 1024], [1, 8, 64, 256, 1024]]
    pwmPeriodUs := 20000
    pwmTickUs := 100
    servoCw := .us2500
    posLocked := .fullCw
    posUnlocked := .fullCcw
    blinkPhaseUs := 250000 }

/-- The state `Rst` of 95_test_vectors.md under EX, with the pins at 0. -/
def rst : State :=
  { State.reset with
    params := ex
    qd := ⟨0b00#2, .unknown, .unknown, .stationary⟩
    pwm := Pwm.initial ex
    lock := Lock.initial defaultComb }

/-- Timer 0 as vector T1 leaves it, with slot 0 registered to handler 0 (vector G2). -/
def ctcTimer : Timer := ⟨.ctc, 8, 200, 0, 200, 100, 0b001#3, #v[some 0#8, none, none]⟩

/-- Timer 0 as vector T3 leaves it, with slots 0, 1, 2 registered to handlers 1, 2, 3 (vector G16). -/
def normalTimer : Timer := ⟨.normal, 1024, 256, 0, 170, 85, 0b111#3, #v[some 1#8, some 2#8, some 3#8]⟩

/-- `Rst` with timer 0 as given and timer 1 OFF. -/
def withTimer (tm : Timer) : State := { rst with tmr := #v[tm, Timer.initial] }

/-- `Rst` with the two tickers as given. -/
def withTickers (a b : Ticker) : State := { rst with tk := #v[a, b] }

/-- A complete entry of 5, 10, 15 at stage 2 (vector K9). -/
def entered : Lock :=
  { Lock.initial defaultComb with dial := 15#4, stage := 2, entered := #v[5#4, 10#4], vc := #v[3#8, 2#8, 1#8] }

/-- `Rst` with the lock group and the pending edge as given. -/
def withLock (l : Lock) (d : Dir) : State := { rst with lock := l, qd := ⟨0b00#2, .lowLow, .highLow, d⟩ }

/-- A lock in CHANGING with the given staging. -/
def changing (slots : Vector (BitVec 7) 6) (idx : Fin 7) (tens prev : Option (BitVec 4)) : Lock :=
  { entered with lkState := .changing, comb := #v[1#4, 2#4, 3#4], chgSlot := slots, chgIdx := idx, chgTens := tens,
                 prevKey := prev }

/-- A feedback blink just begun. -/
def blinking : State := { rst with blink := ⟨true, 4#3, 0#32, true⟩ }

/-- One field of what an outcome goes on with. -/
def get {α : Type} (f : State → α) (o : Host.Outcome State Fault Refusal) : Option α :=
  match o with
  | .next t => some (f t)
  | .fault _ => none
  | .refused _ => none

/-! ## Well-formedness -/

/-- 30_encoding.md R103: KEY must be 0 without KV; the word of that term is refused by name, on the host channel. -/
theorem test_wellformed_key :
    (Instr.lockCtrl false false false false 5#4).wellFormed = false ∧
    (Instr.lockCtrl false false false true 5#4).wellFormed = true ∧
    decode (encode (.lockCtrl false false false false 5#4)) = .illegal .host .keyWithoutKv 1 := by decide

/-! ## Decoding: a word written out from 30_encoding.md R94 to R102 for every row -/

theorem test_decode_qd :
    decode [0x01000000#32] = .op .qdSample 1 ∧ decode [0x02000000#32] = .op .qdGetdir 1 ∧
    decode [0x80000001#32] = .op (.evQdedge 0b01#2) 1 := by decide

theorem test_decode_timer :
    decode [0x10010000#32, 0x00003FFF#32] = .op (.tmrConfig 1#8 16383#32) 2 ∧
    decode [0x11002009#32] = .op (.tmrRegisr 0#8 2#4 9#8) 1 ∧
    decode [0x12030000#32] = .op (.tmrReset 3#8) 1 ∧
    decode [0x13010005#32, 0x000003E8#32] = .op (.tmrRegper 1#8 5#8 1000#32) 2 ∧
    decode [0x14010000#32] = .op (.tmrResetper 1#8) 1 ∧
    decode [0x81070000#32] = .op (.evTmrtick 7#8) 1 ∧
    decode [0x82000000#32] = .op .evUstick 1 := by decide

theorem test_decode_servo :
    decode [0x20000000#32] = .op .srvCenter 1 ∧ decode [0x21000000#32] = .op .srvCw 1 ∧
    decode [0x22000000#32] = .op .srvCcw 1 := by decide

theorem test_decode_lock :
    decode [0x30000080#32] = .op (.lockCtrl true false false false 0#4) 1 ∧
    decode [0x30000040#32] = .op (.lockCtrl false true false false 0#4) 1 ∧
    decode [0x30000034#32] = .op (.lockCtrl false false true true 4#4) 1 ∧
    decode [0x31000000#32] = .op .lockRstcomb 1 ∧ decode [0x32000000#32] = .op .lockCheck 1 := by decide

theorem test_decode_reset :
    decode [0x8E000000#32] = .op .evPorst 1 ∧ decode [0x8F000000#32] = .op .evSoftrst 1 := by decide

/-- Vectors E1 to E7, V15, G7. -/
theorem test_decode_illegal :
    decode [0x00000000#32] = .illegal .host .unassignedOpcode 1 ∧
    decode [0x01000001#32] = .illegal .host .reservedField 1 ∧
    decode [0x7F000000#32] = .illegal .host .unassignedOpcode 1 ∧
    decode [0x83000000#32] = .illegal .event .unassignedOpcode 1 ∧
    decode [0x30000010#32] = .op (.lockCtrl false false false true 0#4) 1 ∧
    decode [0x30010000#32] = .illegal .host .reservedField 1 ∧
    decode [0x10000100#32, 0x00000064#32] = .illegal .host .reservedField 2 ∧
    decode [0x80000004#32] = .illegal .event .reservedField 1 ∧
    decode [0x11000100#32] = .illegal .host .reservedField 1 := by decide

/-- 20_memory.md R73, R74: bytes arrive lowest first; a two-word command without its second word is no command yet. -/
theorem test_decode_bytes :
    decodeBytes [0x09#8, 0x20#8, 0x00#8, 0x11#8] = .op (.tmrRegisr 0#8 2#4 9#8) 1 ∧
    decodeBytes [0x09#8, 0x20#8, 0x00#8] = .incomplete ∧ decode [0x10000000#32] = .incomplete := by decide

/-- The host's numbering: the second word's bits count on from bit 32. -/
theorem test_decode_table_word :
    decodeTableWord 64 0x000003E813010005 = some (.tmrRegper 1#8 5#8 1000#32) ∧
    decodeTableWord 32 0x80000002 = some (.evQdedge 0b10#2) ∧ decodeTableWord 32 0x83000000 = none := by decide

/-- 30_encoding.md R106: its example, and the order of operands. -/
theorem test_asm :
    asm (.lockCtrl false false true true 5#4) = "LOCK.CTRL SW, KEY=5" ∧
    asm (.tmrRegper 1#8 5#8 1000#32) = "TMR.REGPER 1, 5, 1000" ∧ asm (.evQdedge 0b10#2) = "EV.QDEDGE HL" := by decide

/-! ## Steps -/

/-- A delivered instruction runs at the very next step, with every word consumed and no turn left. -/
theorem test_step_runs_delivered :
    get (fun t => (t.responses, t.hostChan, t.turns)) (step (rst.withFetchWord 64 0x0000006410000000)) =
      some ([⟨.ok, some (.period 1600000000 16000000)⟩], [], []) := by decide

/-- Vectors H18, H19: a host command stays at the head while `busy`; an illegal one is answered. -/
theorem test_step_busy :
    get (fun t => (t.responses, t.hostChan, t.turns)) (step { blinking with hostChan := [0x30000000#32], turns := [.host] }) =
      some ([], [0x30000000#32], []) ∧
    get (fun t => (t.responses, t.hostChan)) (step { blinking with hostChan := [0x30000005#32], turns := [.host] }) =
      some ([⟨.illegal, none⟩], []) := by decide

/-! ## The quadrature decoder -/

/-- Vectors V2, V3. -/
theorem test_qdedge_steps :
    get (·.qd) (exec (.evQdedge 0b00#2) { rst with qd := ⟨0b10#2, .highLow, .highHigh, .stationary⟩ }) =
      some ⟨0b00#2, .lowLow, .highLow, .clockwise⟩ ∧
    get (·.qd) (exec (.evQdedge 0b00#2) { rst with qd := ⟨0b01#2, .lowHigh, .highHigh, .clockwise⟩ }) =
      some ⟨0b00#2, .lowLow, .lowHigh, .counterclockwise⟩ := by decide

/-- Vectors V1, V7: no edge from UNKNOWN; a sample that does not match keeps the pending edge. -/
theorem test_qdedge_no_step :
    get (·.qd) (exec (.evQdedge 0b11#2) rst) = some ⟨0b11#2, .highHigh, .unknown, .stationary⟩ ∧
    get (·.qd) (exec (.evQdedge 0b10#2) { rst with qd := ⟨0b10#2, .highLow, .highHigh, .clockwise⟩ }) =
      some ⟨0b10#2, .highLow, .highLow, .clockwise⟩ := by decide

/-- Vector V9. -/
theorem test_getdir :
    get (fun t => (t.qd.dir, t.responses)) (exec .qdGetdir { rst with qd := ⟨0b00#2, .lowLow, .highLow, .clockwise⟩ }) =
      some (.stationary, [⟨.ok, some (.two 0b01#2)⟩]) := by decide

/-- Vector V11. -/
theorem test_sample :
    get (·.responses) (exec .qdSample { rst with qd := ⟨0b10#2, .highLow, .highHigh, .stationary⟩ }) =
      some [⟨.ok, some (.two 0b10#2)⟩] := by decide

/-! ## The timer driver -/

/-- Vectors T3, T11: the ceiling to the full range; the first of two equal errors. -/
theorem test_config :
    get (fun t => (t.tmr[0], t.responses)) (exec (.tmrConfig 0#8 16383#32) rst) =
      some (⟨.normal, 1024, 256, 0, 170, 85, 0b000#3, #v[none, none, none]⟩,
        [⟨.ok, some (.period (16384 * 16000000) 16000000)⟩]) ∧
    get (fun t => (t.tmr[0].top, t.tmr[0].mode)) (exec (.tmrConfig 0#8 10016#32) rst) = some (156, .ctc) := by decide

/-- Vectors G5, T16: CTC drops slot 2; a request with no candidate writes nothing. -/
theorem test_config_keeps :
    get (fun t => (t.tmr[0].ie, t.tmr[0].handler)) (exec (.tmrConfig 0#8 100#32) (withTimer normalTimer)) =
      some (0b011#3, #v[some 1#8, some 2#8, none]) ∧
    get (fun t => (t.tmr, t.responses)) (exec (.tmrConfig 0#8 20000#32) (withTimer ctcTimer)) =
      some (#v[ctcTimer, Timer.initial], [⟨.noSolution, none⟩]) := by decide

/-- Vectors G3, G4. -/
theorem test_regisr :
    get (fun t => (t.tmr[0], t.responses)) (exec (.tmrRegisr 0#8 2#4 9#8) (withTimer ctcTimer)) =
      some (ctcTimer, [⟨.fail, some (.one 0#1)⟩]) ∧
    get (fun t => (t.tmr[0].handler, t.responses)) (exec (.tmrRegisr 0#8 2#4 9#8) (withTimer normalTimer)) =
      some (#v[some 1#8, some 2#8, some 9#8], [⟨.ok, some (.one 1#1)⟩]) := by decide

/-- Vectors G8 (on timer 0), G9. -/
theorem test_tmr_reset :
    get (fun t => (t.tmr[0].tcnt, t.tmr[0].ocra)) (exec (.tmrReset 0#8) (withTimer { ctcTimer with tcnt := 123 })) =
      some (0, 200) ∧
    get (·.responses) (exec (.tmrReset 3#8) rst) = some [⟨.fail, none⟩] := by decide

/-- Vectors G10, G11. -/
theorem test_regper :
    get (fun t => (t.tk[1], t.responses)) (exec (.tmrRegper 1#8 5#8 1000#32) rst) =
      some (⟨true, 1000#32, 5#8, 0#32⟩, [⟨.ok, some (.one 1#1)⟩]) ∧
    get (fun t => (t.tk[1], t.responses)) (exec (.tmrRegper 1#8 5#8 0#32) rst) =
      some (Ticker.initial, [⟨.fail, some (.one 0#1)⟩]) := by decide

/-- Vectors G12, G13. -/
theorem test_resetper :
    get (·.tk[1]) (exec (.tmrResetper 1#8) (withTickers Ticker.initial ⟨true, 1000#32, 5#8, 700#32⟩)) =
      some ⟨true, 1000#32, 5#8, 0#32⟩ ∧
    get (fun t => (t.tk[0], t.responses)) (exec (.tmrResetper 0#8) rst) = some (Ticker.initial, [⟨.ok, none⟩]) := by
  decide

/-- Vector G15: slot 0 fires, and its handler 0 is one PWM tick; vector G14: a matched slot that is not enabled. -/
theorem test_tick_ctc :
    get (fun t => (t.tmr[0].tcnt, t.pwm.out, t.pwm.nextRise)) (exec (.evTmrtick 0#8) (withTimer { ctcTimer with tcnt := 199 })) =
      some (0, true, 20000#32) ∧
    get (fun t => (t.tmr[0].tcnt, t.trace, t.pwm.out)) (exec (.evTmrtick 0#8) (withTimer { ctcTimer with tcnt := 99 })) =
      some (100, [], false) := by decide

/-- Vector G16, ticks 85, 170 and 256. -/
theorem test_tick_normal :
    get (·.trace) (exec (.evTmrtick 0#8) (withTimer { normalTimer with tcnt := 84 })) = some [.callback (.timer 0 2) 3#8] ∧
    get (·.trace) (exec (.evTmrtick 0#8) (withTimer { normalTimer with tcnt := 169 })) = some [.callback (.timer 0 1) 2#8] ∧
    get (fun t => (t.tmr[0].tcnt, t.trace)) (exec (.evTmrtick 0#8) (withTimer { normalTimer with tcnt := 255 })) =
      some (0, [.callback (.timer 0 0) 1#8]) := by decide

/-- Vectors G21, G22. -/
theorem test_ustick_tickers :
    get (fun t => (t.usCounter, t.trace))
        (exec .evUstick { withTickers ⟨true, 3#32, 4#8, 2#32⟩ ⟨true, 9#32, 6#8, 8#32⟩ with usCounter := 0xFFFFFFFF#32 }) =
      some (0#32, [.callback (.ticker 0) 4#8, .callback (.ticker 1) 6#8]) := by decide

/-- Vector H20, events 4 and 16. -/
theorem test_ustick_blink :
    get (·.blink) (exec .evUstick { blinking with params := { ex with blinkPhaseUs := 4 }, usCounter := 3#32 }) =
      some ⟨false, 3#3, 4#32, true⟩ ∧
    get (fun t => (t.blink, t.trace.length))
        (exec .evUstick { rst with params := { ex with blinkPhaseUs := 4 }, usCounter := 15#32, blink := ⟨false, 1#3, 12#32, true⟩ }) =
      some (⟨false, 0#3, 16#32, false⟩, 1) := by decide

/-! ## PWM and servo -/

/-- Vectors W1, W3 (with the width 1500). -/
theorem test_pwm_tick :
    Pwm.tick ex ⟨0#32, 0#32, false, 1500#16⟩ = ⟨20000#32, 1500#32, true, 1500#16⟩ ∧
    Pwm.tick ex ⟨18600#32, 100#32, true, 1500#16⟩ = ⟨18500#32, 0#32, false, 1500#16⟩ := by decide

/-- Vectors W10 to W12. -/
theorem test_servo :
    get (·.pwm.pulseWidth) (exec .srvCenter rst) = some 1500#16 ∧
    get (·.pwm.pulseWidth) (exec .srvCw rst) = some 2500#16 ∧
    get (fun t => (t.pwm.pulseWidth, t.responses)) (exec .srvCcw rst) = some (500#16, [⟨.ok, none⟩]) := by decide

/-- Vector W8: a write between two ticks leaves the pulse in progress as it is. -/
theorem test_pwm_write_between_ticks :
    Pwm.ticksWith ex ⟨20000#32, 1500#32, true, 1500#16⟩ [1500#16, 2500#16] = ⟨19800#32, 1300#32, true, 2500#16⟩ := by
  decide

/-! ## The lock controller -/

/-- Vectors K1, K3, K4, K5, K6, K13: turns, stage advances, the clear, the saturation. -/
theorem test_take_edge :
    ({ Lock.initial #v[0#4, 10#4, 15#4] with dial := 15#4 }.takeEdge .clockwise).vc = #v[1#8, 0#8, 0#8] ∧
    ({ entered with stage := 1, expected := .counterclockwise, dial := 0#4 }.takeEdge .counterclockwise).dial = 15#4 ∧
    ({ Lock.initial defaultComb with dial := 5#4 }.takeEdge .counterclockwise).entered = #v[5#4, 0#4] ∧
    ({ entered with stage := 1, expected := .counterclockwise, dial := 10#4 }.takeEdge .clockwise).expected = .clockwise ∧
    entered.takeEdge .counterclockwise = Lock.initial defaultComb ∧
    ({ Lock.initial defaultComb with dial := 4#4, vc := #v[255#8, 0#8, 0#8] }.takeEdge .clockwise).vc =
      #v[255#8, 0#8, 0#8] := by decide

/-- Vectors K9, K11. -/
theorem test_lockctrl_evaluate :
    get (fun t => (t.lock.lkState, t.pwm.pulseWidth, t.lock.dial)) (exec (.lockCtrl true false false false 0#4) (withLock entered .stationary)) =
      some (.unlocked, 500#16, 15#4) ∧
    get (fun t => (t.lock.badTries, t.lock.stage, t.blink, t.trace))
        (exec (.lockCtrl true false false false 0#4) (withLock { entered with dial := 14#4 } .clockwise)) =
      some (1#2, 0, ⟨true, 4#3, 0#32, true⟩, []) := by decide

/-- Vectors H8, H17. -/
theorem test_lockctrl_other_states :
    get (fun t => (t.lock.chgSlot, t.lock.chgIdx, t.lock.chgTens))
        (exec (.lockCtrl false false true false 0#4)
          (withLock (changing #v[1#7, 2#7, 0#7, 0#7, 0#7, 0#7] 2 (some 1#4) (some 2#4)) .stationary)) =
      some (#v[1#7, 2#7, 12#7, 0#7, 0#7, 0#7], 3, none) ∧
    get (fun t => (t.qd.dir, t.blink, t.lock.lkState))
        (exec (.lockCtrl true true true true 3#4) (withLock { entered with lkState := .alarmed, badTries := 3#2 } .clockwise)) =
      some (.clockwise, ⟨true, 2#3, 0#32, true⟩, .alarmed) := by decide

/-- Vector H21. -/
theorem test_rstcomb :
    get (fun t => (t.lock.comb, t.lock.lkState))
        (exec .lockRstcomb (withLock { entered with lkState := .alarmed, comb := #v[1#4, 2#4, 3#4] } .stationary)) =
      some (#v[5#4, 10#4, 15#4], .alarmed) := by decide

/-- Vectors X1, X2, X3. -/
theorem test_check :
    get (·.responses) (exec .lockCheck (withLock entered .stationary)) = some [⟨.ok, some (.one 1#1)⟩] ∧
    get (·.responses) (exec .lockCheck (withLock { entered with vc := #v[4#8, 2#8, 1#8] } .stationary)) =
      some [⟨.ok, some (.one 1#1)⟩] ∧
    get (·.responses) (exec .lockCheck (withLock { entered with vc := #v[2#8, 2#8, 1#8] } .stationary)) =
      some [⟨.ok, some (.one 0#1)⟩] := by decide

/-! ## Resets -/

/-- Vectors E8, E11: the combination is left out, it is unspecified. -/
theorem test_porst :
    get (fun t => (t.lock.lkState, t.lock.badTries, t.tmr[0], t.pwm.pulseWidth))
        (exec .evPorst { withTimer ctcTimer with lock := { entered with lkState := .alarmed, badTries := 3#2 } }) =
      some (.locked, 0#2, Timer.initial, 2500#16) := by decide

/-- Vectors E9, E10: the combination is kept; a blink is aborted with no display record. -/
theorem test_softrst :
    get (fun t => (t.lock, t.trace, t.busy))
        (exec .evSoftrst { blinking with lock := { entered with lkState := .alarmed, comb := #v[1#4, 2#4, 3#4] } }) =
      some (Lock.initial #v[1#4, 2#4, 3#4], [], false) := by decide

/-! ## Witnesses: for each statement with hypotheses, a state and operands that meet all of them -/

theorem test_ex_wf : ex.Wf := by decide

/-- DecodeInvertsEncode, EncodeInvertsDecode, ByteTransportRoundTrip. -/
theorem test_witness_encoding :
    (Instr.lockCtrl true false true true 9#4).wellFormed = true ∧
    decode [0x300000B9#32, 0x01000000#32] = .op (.lockCtrl true false true true 9#4) 1 := by decide

/-- StepRunsDecodedInstruction: an event while `busy`, a host command while not, a host command held. -/
theorem test_witness_step_runs :
    (let s : State := { blinking with eventChan := [0x82000000#32], turns := [.event] }
     s.turns = [.event] ∧ decode (s.channel .event) = .op .evUstick 1) ∧
    (let s : State := { rst with hostChan := [0x12000000#32], turns := [.host, .event] }
     s.turns = [.host, .event] ∧ decode (s.channel .host) = .op (.tmrReset 0#8) 1 ∧ s.busy = false) ∧
    (let s : State := { blinking with hostChan := [0x12000000#32], turns := [.host] }
     s.turns = [.host] ∧ decode (s.channel .host) = .op (.tmrReset 0#8) 1 ∧ s.busy = true) := by decide

/-- StepAnswersIllegalWords, both clauses. -/
theorem test_witness_step_illegal :
    (let s : State := { blinking with hostChan := [0x7F000000#32], turns := [.host] }
     s.turns = [.host] ∧ decode s.hostChan = .illegal .host .unassignedOpcode 1) ∧
    (let s : State := { rst with eventChan := [0x80000004#32], turns := [.event] }
     s.turns = [.event] ∧ decode s.eventChan = .illegal .event .reservedField 1) := by decide

/-- StepIdlesWithoutCommand: no turn; an empty channel; an operand word that is not there yet. -/
theorem test_witness_step_idles :
    rst.turns = [] ∧
    (let s : State := { rst with turns := [.event] }
     s.turns = [.event] ∧ decode (s.channel .event) = .incomplete) ∧
    (let s : State := { rst with hostChan := [0x13010005#32], turns := [.host] }
     s.turns = [.host] ∧ decode (s.channel .host) = .incomplete) := by decide

/-- HostCommandsAreHeldWhileBusy. -/
theorem test_witness_held :
    blinking.busy = true ∧ channelOf (opcode .qdGetdir) = .host ∧
    (let s : State := { blinking with hostChan := [0x02000000#32], turns := [.host] }
     s.busy = true ∧ s.turns = [.host] ∧ decode s.hostChan = .op .qdGetdir 1) := by decide

/-- HostCommandsRespondOnce, both clauses; `busy = false` is the hypothesis of every statement of a host command. -/
theorem test_witness_not_busy :
    rst.busy = false ∧ channelOf (opcode .lockCheck) = .host ∧ channelOf (opcode .evPorst) = .event := by decide

/-- EveryStepAnswersNext, StepOnlyConsumesAndAppends, EveryStepKeepsTheInvariant and EveryStepKeepsThePwmBounds: states of
the invariants, and the step of one. -/
theorem test_witness_invariant_ctc : (withTimer ctcTimer).Inv := by
  refine ⟨?_, ?_, ?_, ?_, ?_⟩ <;> decide

theorem test_witness_invariant_normal : (withTimer normalTimer).Inv := by
  refine ⟨?_, ?_, ?_, ?_, ?_⟩ <;> decide

theorem test_witness_invariant_step :
    (withTimer ctcTimer).pwm.Inv ex ∧ LegalWidth (withTimer ctcTimer).pwm.pulseWidth ∧
    get (·.usCounter) (step { withTimer ctcTimer with eventChan := [0x82000000#32], turns := [.event] }) = some 1#32 := by
  decide

/-- PWM bounds in the course of a pulse: high, and low with the falling countdown below zero (vector W4). -/
theorem test_witness_pwm_inv :
    Pwm.Inv ex ⟨18600#32, 100#32, true, 1500#16⟩ ∧ Pwm.Inv ex ⟨100#32, BitVec.ofInt 32 (-18400), false, 2500#16⟩ := by decide

/-- NoStepTripleNoEdge, on the sequence of vector S1, and FirstEdgeNeedsThreeSamples. -/
theorem test_witness_samples :
    (let codes : List (BitVec 2) := [0b11#2, 0b01#2, 0b11#2, 0b10#2, 0b11#2, 0b00#2, 0b01#2, 0b00#2, 0b10#2]
     ¬ [0b011#3, 0b010#3, 0b000#3] <:+: [rst.qd.last.code, rst.qd.state.code] ++ codes.map (·.setWidth 3) ∧
     ¬ [0b011#3, 0b001#3, 0b000#3] <:+: [rst.qd.last.code, rst.qd.state.code] ++ codes.map (·.setWidth 3)) ∧
    rst.qd.state = .unknown ∧ rst.qd.last = .unknown ∧ rst.qd.dir = .stationary := by decide

/-- TmrConfigTakesTheFirstNearestCandidate, with a request that has a candidate and one that has none (vector T16). -/
theorem test_witness_config :
    rst.params.Wf ∧ rst.busy = false ∧ (1#8).toNat = (1 : Fin 2).val ∧ 1 ≤ (1#32).toNat ∧
    (searchBest [1, 8, 64, 256, 1024] 16000000 8 1).isSome = true ∧
    searchBest [1, 8, 64, 256, 1024] 16000000 8 20000 = none := by decide

/-- TmrConfigRefusesBadRequests, TmrResetZeroesTheCounter, TmrRegperAttachesTheTicker, TmrResetperRestartsThePhase: the
least invalid id, a zero period, both valid ids. -/
theorem test_witness_ids :
    2 ≤ (2#8).toNat ∧ (0#32 : BitVec 32) = 0#32 ∧ (0#8).toNat = (0 : Fin 2).val ∧ (1#8).toNat = (1 : Fin 2).val ∧
    (1#32 : BitVec 32) ≠ 0#32 ∧ rst.tk[0].attached = false ∧
    (withTickers Ticker.initial ⟨true, 1000#32, 5#8, 700#32⟩).tk[1].attached = true := by decide

/-- TmrRegisrRegistersUsableSlots: the last usable slot and the first unusable one, in each mode. -/
theorem test_witness_regisr :
    (withTimer normalTimer).tmr[0].mode = .normal ∧ (2#4).toNat = (2 : Fin 3).val ∧ 3 ≤ (3#4).toNat ∧
    (withTimer ctcTimer).tmr[0].mode = .ctc ∧ (1#4).toNat = (1 : Fin 3).val ∧ (2#4).toNat = 2 ∧
    rst.tmr[0].mode = .off := by decide

/-- TickOfNoConfiguredTimerIsIgnored, TickInCtcMode, TickInNormalMode, SlotZeroFiresOncePerPeriod. -/
theorem test_witness_ticks :
    2 ≤ (2#8).toNat ∧ rst.tmr[1].mode = .off ∧ (withTimer ctcTimer).tmr[0].mode = .ctc ∧
    (withTimer normalTimer).tmr[0].mode = .normal ∧ normalTimer.Inv 8 [1, 8, 64, 256, 1024] ∧ normalTimer.mode ≠ .off ∧
    normalTimer.tcnt = 0 ∧ (1#8 : BitVec 8) ≠ 0#8 ∧ normalTimer.handler[0] = some 1#8 := by decide

/-- SlotZeroFiresOncePerPeriod with handler 0. -/
theorem test_witness_ticks_pwm :
    ctcTimer.Inv 8 [1, 8, 64, 256, 1024] ∧ ctcTimer.tcnt = 0 ∧ ctcTimer.handler[0] = some 0#8 := by decide

/-- DispatchRunsThePwmTickOrEmitsACallback: handler 0 and another one, from a slot and from a ticker. -/
theorem test_witness_dispatch :
    (withTimer ctcTimer).tmr[0].handler[0] = some 0#8 ∧ (withTimer normalTimer).tmr[0].handler[2] = some 3#8 ∧
    rst.tk[0].handler = 0#8 ∧ (withTickers ⟨true, 3#32, 4#8, 2#32⟩ Ticker.initial).tk[0].handler = 4#8 := by decide

/-- TickerFiresOncePerPeriod, at the least period and in the last microsecond of one. -/
theorem test_witness_ticker :
    (let k : Ticker := ⟨true, 1#32, 4#8, 0#32⟩; k.Inv ∧ k.attached = true ∧ k.handler ≠ 0#8) ∧
    (let k : Ticker := ⟨true, 3#32, 0#8, 2#32⟩; k.Inv ∧ k.attached = true) ∧
    (let s := withTickers ⟨true, 3#32, 0#8, 2#32⟩ Ticker.initial
     (∀ j : Fin 2, s.tk[j.val].Inv) ∧ s.tk[0].attached = true ∧ s.tk[0].handler = 0#8) := by decide

/-- PwmTickRisesThenFalls: a rising countdown that reaches zero, and one that does not. -/
theorem test_witness_pwm_tick :
    (100#32 - BitVec.ofNat 32 ex.pwmTickUs).toInt ≤ 0 ∧ 0 < (101#32 - BitVec.ofNat 32 ex.pwmTickUs).toInt := by decide

/-- PwmWaveform: the state of vector W1; the register written in the course of the pulse (vector W8); the first and the
last tick before the next rising one, and the rising one itself. -/
theorem test_witness_waveform :
    (let w : Pwm := ⟨20000#32, 1500#32, true, 1500#16⟩
     ex.Wf ∧ LegalWidth 1500#16 ∧ w.nextRise = BitVec.ofNat 32 ex.pwmPeriodUs ∧ w.nextFall = (1500#16).setWidth 32 ∧
       w.out = true) ∧
    (let vs := List.replicate 5 1500#16 ++ List.replicate 194 2500#16
     LegalWidth 2500#16 ∧ ([] : List (BitVec 16)).length < (ex.pwmPeriodUs + ex.pwmTickUs - 1) / ex.pwmTickUs ∧
       vs.length < (ex.pwmPeriodUs + ex.pwmTickUs - 1) / ex.pwmTickUs ∧
       vs.length + 1 = (ex.pwmPeriodUs + ex.pwmTickUs - 1) / ex.pwmTickUs) := by
  refine ⟨by decide, by decide, by decide, ?_, ?_⟩ <;> simp only [List.length_append, List.length_replicate] <;> decide

/-- ServoCommandsSetThePulseWidth, for both ends. -/
theorem test_witness_servo :
    rst.busy = false ∧ rst.params.servoCw = .us2500 ∧
    ({ rst with params := { ex with servoCw := .us500 } } : State).params.servoCw = .us500 := by decide

/-- EdgeTurnsAdvancesOrClears: no edge; the expected one; the opposite one at stages 0, 1 and 2. -/
theorem test_witness_edge :
    Dir.clockwise ≠ .stationary ∧ entered.expected = .clockwise ∧ Dir.counterclockwise ≠ .stationary ∧
    Dir.counterclockwise ≠ entered.expected ∧ entered.stage = 2 ∧
    (let l : Lock := { entered with stage := 1, expected := .counterclockwise }
     Dir.clockwise ≠ l.expected ∧ l.stage.val < 2) ∧
    (let l : Lock := Lock.initial defaultComb
     Dir.counterclockwise ≠ l.expected ∧ l.stage.val < 2) := by decide

/-- LockedInvocationHandlesTheEdge: no press, a press at stage 1 (vector K8), a button held at stage 2 (vector K10). -/
theorem test_witness_locked :
    (let s := withLock entered .clockwise
     s.busy = false ∧ s.lock.lkState = .locked) ∧
    (let s := withLock { entered with stage := 1, expected := .counterclockwise } .stationary
     s.lock.lkState = .locked ∧ ((s.lock.withInputs true false false 0#4).takeEdge s.qd.dir).stage ≠ 2) ∧
    (let s := withLock { entered with prevBl := true } .stationary
     s.lock.lkState = .locked ∧ s.lock.prevBl = true) := by decide

/-- MatchingEntryUnlocks: the entry of vector K9, and one completed by the edge of the same invocation. -/
theorem test_witness_match :
    (let s := withLock entered .stationary
     let l := (s.lock.withInputs true false false 0#4).takeEdge s.qd.dir
     s.busy = false ∧ s.lock.lkState = .locked ∧ s.lock.prevBl = false ∧ l.stage = 2 ∧ l.EntryMatches) ∧
    (let s := withLock { entered with dial := 14#4, vc := #v[3#8, 2#8, 0#8] } .clockwise
     let l := (s.lock.withInputs true false false 0#4).takeEdge s.qd.dir
     l.stage = 2 ∧ l.EntryMatches) := by decide

/-- FailedEntryBlinks and ThirdFailureAlarms: the entry of vector K11, with 0 and with 2 bad tries. -/
theorem test_witness_failed :
    (let s := withLock { entered with dial := 14#4 } .clockwise
     let l := (s.lock.withInputs true false false 0#4).takeEdge s.qd.dir
     s.busy = false ∧ s.lock.lkState = .locked ∧ s.lock.prevBl = false ∧ l.stage = 2 ∧ ¬ l.EntryMatches ∧
       s.lock.badTries ≠ 2#2) ∧
    (let s := withLock { entered with dial := 14#4, badTries := 2#2 } .clockwise
     let l := (s.lock.withInputs true false false 0#4).takeEdge s.qd.dir
     s.busy = false ∧ s.lock.lkState = .locked ∧ s.lock.prevBl = false ∧ l.stage = 2 ∧ ¬ l.EntryMatches ∧
       s.lock.badTries = 2#2) := by decide

/-- UnlockedInvocation: both buttons with the left one held (vector H5); the right one with the switch (H2); the right one
without it (H3). -/
theorem test_witness_unlocked :
    (let s := withLock { entered with lkState := .unlocked, prevBl := true } .stationary
     s.busy = false ∧ s.lock.lkState = .unlocked ∧ ¬ (s.lock.prevBl = true ∧ s.lock.prevBr = true)) ∧
    (let s := withLock { entered with lkState := .unlocked } .stationary
     s.lock.lkState = .unlocked ∧ s.lock.prevBr = false) := by decide

/-- ChangingCommits: a full and valid staging (vector H9), and one with a digit above 15 (vector H11). -/
theorem test_witness_commit :
    (let s := withLock (changing #v[5#7, 10#7, 15#7, 5#7, 10#7, 15#7] 6 none none) .stationary
     s.busy = false ∧ s.lock.lkState = .changing ∧ s.lock.chgIdx = 6 ∧
       (∀ k : Fin 3, s.lock.chgSlot[k.val] = s.lock.chgSlot[k.val + 3]) ∧ ∀ k : Fin 6, s.lock.chgSlot[k.val].toNat ≤ 15) ∧
    (let s := withLock (changing #v[16#7, 0#7, 1#7, 16#7, 0#7, 1#7] 6 none none) .stationary
     s.busy = false ∧ s.lock.lkState = .changing ∧ ¬ ∀ k : Fin 6, s.lock.chgSlot[k.val].toNat ≤ 15) := by decide

/-- ChangingTakesKeyStrokes: a tens digit; a ones digit into the last slot; a full buffer; a key above 9; no key. -/
theorem test_witness_strokes :
    (let l := changing #v[1#7, 2#7, 3#7, 1#7, 2#7, 0#7] 5 none (some 9#4)
     l.prevKey = some 9#4 ∧ (9#4).toNat ≤ 9 ∧ l.chgIdx ≠ 6 ∧ l.chgTens = none) ∧
    (let l := changing #v[1#7, 2#7, 3#7, 1#7, 2#7, 0#7] 5 (some 0#4) (some 3#4)
     l.prevKey = some 3#4 ∧ (3#4).toNat ≤ 9 ∧ l.chgIdx.val < 6 ∧ l.chgTens = some 0#4) ∧
    (changing #v[1#7, 2#7, 3#7, 1#7, 2#7, 3#7] 6 none (some 7#4)).chgIdx = 6 ∧
    ((changing #v[0#7, 0#7, 0#7, 0#7, 0#7, 0#7] 0 none (some 10#4)).prevKey = some 10#4 ∧ 9 < (10#4).toNat) ∧
    (changing #v[0#7, 0#7, 0#7, 0#7, 0#7, 0#7] 0 none none).prevKey = none := by decide

/-- AlarmedInvocationBlinks, AlarmIsLeftByResetsAlone: the state of vector H17. -/
theorem test_witness_alarmed :
    (let s := withLock { entered with lkState := .alarmed, badTries := 3#2 } .clockwise
     s.busy = false ∧ s.lock.lkState = .alarmed ∧
       get (·.lock.lkState) (exec (.lockCtrl true true true true 3#4) s) = some .alarmed ∧
       get (·.lock.lkState) (exec .evSoftrst s) = some .locked) := by decide

/-- OnlyAMatchingEntryOrACommitUnlocks: both ways. -/
theorem test_witness_unlocks :
    (let s := withLock entered .stationary
     s.lock.lkState ≠ .unlocked ∧
       get (·.lock.lkState) (exec (.lockCtrl true false false false 0#4) s) = some .unlocked) ∧
    (let s := withLock (changing #v[1#7, 2#7, 3#7, 0#7, 0#7, 0#7] 3 none none) .stationary
     s.lock.lkState ≠ .unlocked ∧
       get (·.lock.lkState) (exec (.lockCtrl false false false false 0#4) s) = some .unlocked) := by decide

/-- WritersOfTheCombination: LOCK.RSTCOMB and a commit each write it. -/
theorem test_witness_comb :
    (let s := withLock (changing #v[5#7, 10#7, 15#7, 5#7, 10#7, 15#7] 6 none none) .stationary
     s.lock.comb = #v[1#4, 2#4, 3#4] ∧ get (·.lock.comb) (exec .lockRstcomb s) = some #v[5#4, 10#4, 15#4] ∧
       get (·.lock.comb) (exec (.lockCtrl false false false false 0#4) s) = some #v[5#4, 10#4, 15#4]) := by decide

/-- BlinkLastsItsPhases: both blinks, at no event and at the last one. -/
theorem test_witness_blink :
    (blinking.params.Wf ∧ blinking.blink.phases = BitVec.ofNat 3 4 ∧ blinking.blink.start = blinking.usCounter ∧
      blinking.blink.led = true ∧ 1000000 ≤ 4 * blinking.params.blinkPhaseUs) ∧
    (let s : State := { blinking with blink := ⟨true, 2#3, 0#32, true⟩ }
     s.blink.phases = BitVec.ofNat 3 2 ∧ s.blink.start = s.usCounter ∧ s.blink.led = true ∧
       0 ≤ 2 * s.params.blinkPhaseUs) := by decide

/-- WritersOfEachStateGroup: an event that answers a next state, and a host command. -/
theorem test_witness_writers :
    get (·.tk) (exec .lockRstcomb rst) = some rst.tk ∧ get (·.lock) (exec (.evQdedge 0b01#2) rst) = some rst.lock := by
  decide

end Sys2Proof.Tests
end

section
/-! PROOFS of the family 00_scope: what a step takes and appends, when it responds, what it does to the PWM group. -/

namespace Sys2Proof.Machine

/-! ## What is taken from the channels -/

/-- `u` is `s` with its next turn, if there is one, used up and some words taken from the heads of the channels. -/
def State.Takes (s u : State) : Prop :=
  ∃ a b, u = { s with turns := s.turns.tail, hostChan := s.hostChan.drop a, eventChan := s.eventChan.drop b }

theorem State.takes_of_turns_nil {s : State} (h : s.turns = []) : s.Takes s := by
  have htail : s.turns.tail = s.turns := by rw [h]; rfl
  exact ⟨0, 0, by rw [htail]; rfl⟩

theorem State.takes_afterTurn {s : State} {ch : Channel} {rest : List Channel} (h : s.turns = ch :: rest) :
    s.Takes (s.afterTurn rest) :=
  ⟨0, 0, by simp [State.afterTurn, h]⟩

theorem State.takes_consume {s : State} {ch : Channel} {rest : List Channel} (h : s.turns = ch :: rest)
    (c : Channel) (n : Nat) : s.Takes ((s.afterTurn rest).consume c n) := by
  cases c with
  | host => exact ⟨n, 0, by simp [State.consume, State.setChannel, State.channel, State.afterTurn, h]⟩
  | event => exact ⟨0, n, by simp [State.consume, State.setChannel, State.channel, State.afterTurn, h]⟩

theorem State.Takes.params {s u : State} (h : s.Takes u) : u.params = s.params := by
  obtain ⟨a, b, rfl⟩ := h; rfl

theorem State.Takes.pwm {s u : State} (h : s.Takes u) : u.pwm = s.pwm := by
  obtain ⟨a, b, rfl⟩ := h; rfl

/-- A step takes its turn and its words; then it does nothing, answers an illegal word, or has the effect of an
instruction that is not held. Every statement about all steps starts from this. -/
theorem step_takes {s t : State} (h : step s = .next t) :
    ∃ u, s.Takes u ∧ (t = u ∨ t = u.respond .illegal none ∨
      ∃ i, (channelOf (opcode i) = .event ∨ u.busy = false) ∧ t = effect i u) := by
  rcases step_cases h with ⟨hnil, rfl⟩ | ⟨ch, rest, hturns, ⟨-, rfl⟩ | ⟨c, why, n, -, rfl⟩ | ⟨i, n, -, hexec⟩⟩
  · exact ⟨_, State.takes_of_turns_nil hnil, .inl rfl⟩
  · exact ⟨_, State.takes_afterTurn hturns, .inl rfl⟩
  · refine ⟨_, State.takes_consume hturns ch n, ?_⟩
    cases c with
    | host => exact .inr (.inl rfl)
    | event => exact .inl rfl
  · have htakes : s.Takes (if (s.afterTurn rest).holds i then s.afterTurn rest
        else (s.afterTurn rest).consume ch n) := by
      split
      · exact State.takes_afterTurn hturns
      · exact State.takes_consume hturns ch n
    refine ⟨_, htakes, ?_⟩
    rcases exec_cases hexec with ⟨-, -, rfl⟩ | ⟨hfree, rfl⟩
    · exact .inl rfl
    · exact .inr (.inr ⟨i, hfree, rfl⟩)

/-- The step that finds an operation at the head of the channel whose turn it is. -/
theorem step_of_op {s : State} {ch : Channel} {rest : List Channel} {i : Instr} {n : Nat}
    (hturns : s.turns = ch :: rest) (hop : decode (s.channel ch) = .op i n) :
    step s = exec i (if s.holds i then s.afterTurn rest else (s.afterTurn rest).consume ch n) := by
  simp only [step, State.fetch, hturns, State.serve, State.afterTurn_channel, hop]
  rfl

theorem State.holds_of_busy {s : State} {i : Instr} (hb : s.busy = true) (hi : channelOf (opcode i) = .host) :
    s.holds i = true := by
  simp [State.holds, hb, hi]

theorem exec_of_host_of_busy {s : State} {i : Instr} (hb : s.busy = true) (hi : channelOf (opcode i) = .host) :
    exec i s = .next s := by
  rw [exec_eq, if_pos hi, hostCommand_of_busy hb]

theorem exec_of_host_of_not_busy {s : State} {i : Instr} (hb : s.busy = false) (hi : channelOf (opcode i) = .host) :
    exec i s = .next (effect i s) := by
  rw [exec_eq, if_pos hi, hostCommand_of_not_busy hb]

theorem exec_of_event {s : State} {i : Instr} (hi : channelOf (opcode i) = .event) :
    exec i s = .next (effect i s) := by
  rw [exec_eq, if_neg (by simp [hi]), eventStep_next.2 rfl]

/-- Settles O10: a step that meets the command runs it in a state that still holds it, and there `exec` does nothing. -/
theorem hostCommandsAreHeldWhileBusy : Obligations.HostCommandsAreHeldWhileBusy := by
  intro s i hb hi
  refine ⟨exec_of_host_of_busy hb hi, fun rest n hturns hop => ?_⟩
  rw [step_of_op hturns hop, if_pos (State.holds_of_busy hb hi)]
  exact exec_of_host_of_busy hb hi

/-! ## What an instruction may append -/

/-- `t` has the parameters, channels and turns of `s`, `n` more responses, and a trace that only grew. -/
structure State.Appends (s t : State) (n : Nat) : Prop where
  params : t.params = s.params
  hostChan : t.hostChan = s.hostChan
  eventChan : t.eventChan = s.eventChan
  turns : t.turns = s.turns
  trace : s.trace <+: t.trace
  responses : ∃ rs, rs.length = n ∧ t.responses = s.responses ++ rs

/-- Writes to the groups of 10_state.md and output events append no response. -/
theorem State.Appends.of_eq {s t : State}
    (h : t = { s with powerOns := t.powerOns, qd := t.qd, tmr := t.tmr, tk := t.tk, usCounter := t.usCounter,
                      pwm := t.pwm, lock := t.lock, blink := t.blink, trace := t.trace })
    (htrace : s.trace <+: t.trace) : s.Appends t 0 := by
  rw [h]
  exact ⟨rfl, rfl, rfl, rfl, htrace, [], rfl, by simp⟩

theorem State.Appends.refl (s : State) : s.Appends s 0 := .of_eq rfl List.prefix_rfl

theorem State.Appends.trans {s t u : State} {m n : Nat} (h : s.Appends t m) (k : t.Appends u n) :
    s.Appends u (m + n) := by
  obtain ⟨rs, hlen, hrs⟩ := h.responses
  obtain ⟨rs', hlen', hrs'⟩ := k.responses
  exact ⟨k.params.trans h.params, k.hostChan.trans h.hostChan, k.eventChan.trans h.eventChan,
    k.turns.trans h.turns, h.trace.trans k.trace, rs ++ rs', by simp [hlen, hlen'], by simp [hrs, hrs']⟩

theorem State.appends_respond (s : State) (st : Status) (v : Option RespValue) : s.Appends (s.respond st v) 1 :=
  ⟨rfl, rfl, rfl, rfl, List.prefix_rfl, _, rfl, rfl⟩

theorem State.Appends.respond {s t : State} (h : s.Appends t 0) (st : Status) (v : Option RespValue) :
    s.Appends (t.respond st v) 1 :=
  h.trans (t.appends_respond st v)

theorem State.HandlerFrame.appends {s t : State} (h : s.HandlerFrame t) : s.Appends t 0 := by
  obtain ⟨heq, -, htrace⟩ := h
  exact .of_eq (by rw [heq]) htrace

theorem State.LockFrame.appends {s t : State} (h : s.LockFrame t) : s.Appends t 0 := by
  obtain ⟨heq, -, -⟩ := h
  exact .of_eq (by rw [heq]) (by rw [heq])

/-- All a timer command can do: it writes the timers and the tickers, and responds once (10_state.md R69). -/
def State.TimerAnswer (s t : State) : Prop :=
  ∃ (tmr : Vector Timer 2) (tk : Vector Ticker 2) (st : Status) (v : Option RespValue),
    t = { s with tmr := tmr, tk := tk }.respond st v

theorem tmrConfigRun_answer (tid : BitVec 8) (period : BitVec 32) (s : State) :
    s.TimerAnswer (tmrConfigRun tid period s) := by
  unfold tmrConfigRun
  split
  · exact ⟨_, _, _, _, rfl⟩
  · split
    · exact ⟨_, _, _, _, rfl⟩
    · split <;> exact ⟨_, _, _, _, rfl⟩

theorem tmrRegisrRun_answer (tid : BitVec 8) (slot : BitVec 4) (hid : BitVec 8) (s : State) :
    s.TimerAnswer (tmrRegisrRun tid slot hid s) := by
  unfold tmrRegisrRun
  split
  · exact ⟨_, _, _, _, rfl⟩
  · split <;> exact ⟨_, _, _, _, rfl⟩

theorem tmrResetRun_answer (tid : BitVec 8) (s : State) : s.TimerAnswer (tmrResetRun tid s) := by
  unfold tmrResetRun
  split <;> exact ⟨_, _, _, _, rfl⟩

theorem tmrRegperRun_answer (tid hid : BitVec 8) (period : BitVec 32) (s : State) :
    s.TimerAnswer (tmrRegperRun tid hid period s) := by
  unfold tmrRegperRun
  split
  · exact ⟨_, _, _, _, rfl⟩
  · split <;> exact ⟨_, _, _, _, rfl⟩

theorem tmrResetperRun_answer (tid : BitVec 8) (s : State) : s.TimerAnswer (tmrResetperRun tid s) := by
  unfold tmrResetperRun
  split <;> exact ⟨_, _, _, _, rfl⟩

theorem State.TimerAnswer.appends {s t : State} (h : s.TimerAnswer t) : s.Appends t 1 := by
  obtain ⟨tmr, tk, st, v, rfl⟩ := h
  have hwrite : s.Appends { s with tmr := tmr, tk := tk } 0 := .of_eq rfl List.prefix_rfl
  exact hwrite.respond st v

theorem State.TimerAnswer.pwm {s t : State} (h : s.TimerAnswer t) : t.pwm = s.pwm := by
  obtain ⟨tmr, tk, st, v, rfl⟩ := h; rfl

theorem State.finishInvocation_appends (s : State) : s.Appends s.finishInvocation 0 := by
  rcases s.finishInvocation_cases with ⟨-, e⟩ | ⟨-, e⟩ <;> rw [e]
  · exact .of_eq rfl List.prefix_rfl
  · exact .of_eq rfl (by simp)

theorem lockCtrlRun_appends (bl br sw : Bool) (key : Option (BitVec 4)) (s : State) :
    s.Appends (lockCtrlRun bl br sw key s) 1 :=
  ((((s.setLock_frame _).trans (State.lockProcedure_frame _ _ _ _ _ _)).appends).trans
    (State.finishInvocation_appends _)).respond .ok none

theorem State.setTimer_appends (s : State) (t : Fin 2) (tm : Timer) : s.Appends (s.setTimer t tm) 0 :=
  .of_eq rfl List.prefix_rfl

theorem State.setTicker_appends (s : State) (t : Fin 2) (k : Ticker) : s.Appends (s.setTicker t k) 0 :=
  .of_eq rfl List.prefix_rfl

theorem evTmrtickRun_appends (tid : BitVec 8) (s : State) : s.Appends (evTmrtickRun tid s) 0 := by
  rcases evTmrtickRun_cases tid s with ⟨-, e⟩ | ⟨t, -, hframe⟩
  · rw [e]; exact .refl s
  · exact (s.setTimer_appends t _).trans hframe.appends

theorem State.tickTicker_appends (s : State) (t : Fin 2) : s.Appends (s.tickTicker t) 0 :=
  (s.setTicker_appends t _).trans (s.tickTicker_frame t).appends

theorem State.blinkAdvance_appends (s : State) : s.Appends s.blinkAdvance 0 := by
  obtain ⟨heq, htrace⟩ := s.blinkAdvance_frame
  exact .of_eq (by rw [heq]) htrace

theorem evUstickRun_appends (s : State) : s.Appends (evUstickRun s) 0 :=
  have hcount : s.Appends { s with usCounter := s.usCounter + 1#32 } 0 := .of_eq rfl List.prefix_rfl
  ((hcount.trans (State.tickTicker_appends _ 0)).trans (State.tickTicker_appends _ 1)).trans
    (State.blinkAdvance_appends _)

/-- How many responses an instruction that is not held gives (00_scope.md R27). -/
def responseCount (i : Instr) : Nat := if channelOf (opcode i) = .host then 1 else 0

/-- An instruction writes no parameter and no channel, and gives its one response or none. -/
theorem effect_appends (i : Instr) (s : State) : s.Appends (effect i s) (responseCount i) := by
  cases i with
  | qdSample => exact s.appends_respond _ _
  | qdGetdir => exact s.clearEdge_frame.appends.respond _ _
  | tmrConfig tid period => exact (tmrConfigRun_answer tid period s).appends
  | tmrRegisr tid slot hid => exact (tmrRegisrRun_answer tid slot hid s).appends
  | tmrReset tid => exact (tmrResetRun_answer tid s).appends
  | tmrRegper tid hid period => exact (tmrRegperRun_answer tid hid period s).appends
  | tmrResetper tid => exact (tmrResetperRun_answer tid s).appends
  | srvCenter => exact (s.setPulseWidth_frame _).appends.respond _ _
  | srvCw => exact (s.setPulseWidth_frame _).appends.respond _ _
  | srvCcw => exact (s.setPulseWidth_frame _).appends.respond _ _
  | lockCtrl bl br sw kv key => exact lockCtrlRun_appends bl br sw (keyOperand kv key) s
  | lockRstcomb => exact (s.setLock_frame _).appends.respond _ _
  | lockCheck => exact s.appends_respond _ _
  | evQdedge code => exact .of_eq rfl List.prefix_rfl
  | evTmrtick tid => exact evTmrtickRun_appends tid s
  | evUstick => exact evUstickRun_appends s
  | evPorst => exact .of_eq rfl List.prefix_rfl
  | evSoftrst => exact .of_eq rfl List.prefix_rfl

/-- Settles O13: an instruction that is not held has its effect, and the effect gives the count of its channel. -/
theorem hostCommandsRespondOnce : Obligations.HostCommandsRespondOnce := by
  intro i s
  obtain ⟨rs, hlen, hrs⟩ := (effect_appends i s).responses
  constructor
  · intro hi hb
    obtain ⟨r, rfl⟩ := List.length_eq_one_iff.1 (hlen.trans (by simp [responseCount, hi]))
    exact ⟨_, r, exec_of_host_of_not_busy hb hi, hrs⟩
  · intro hi
    obtain rfl := List.length_eq_zero_iff.1 (hlen.trans (by simp [responseCount, hi]))
    exact ⟨_, exec_of_event hi, by simpa using hrs⟩

/-- A step appends at most one response to the state it took its turn and words from. -/
theorem step_takes_appends {s t : State} (h : step s = .next t) : ∃ u n, s.Takes u ∧ u.Appends t n ∧ n ≤ 1 := by
  obtain ⟨u, htakes, rfl | rfl | ⟨i, -, rfl⟩⟩ := step_takes h
  · exact ⟨_, 0, htakes, .refl _, by omega⟩
  · exact ⟨u, 1, htakes, u.appends_respond _ _, le_rfl⟩
  · refine ⟨u, _, htakes, effect_appends i u, ?_⟩
    unfold responseCount
    split <;> omega

theorem step_params {s t : State} (h : step s = .next t) : t.params = s.params := by
  obtain ⟨u, n, htakes, happ, -⟩ := step_takes_appends h
  exact happ.params.trans htakes.params

/-- Settles O12: what a step takes and what it appends, put together. -/
theorem stepOnlyConsumesAndAppends : Obligations.StepOnlyConsumesAndAppends := by
  intro s t h
  obtain ⟨u, n, ⟨a, b, rfl⟩, happ, hn⟩ := step_takes_appends h
  obtain ⟨rs, hlen, hrs⟩ := happ.responses
  exact ⟨happ.params, happ.turns, ⟨a, b, happ.hostChan, happ.eventChan⟩, ⟨rs, hrs, by omega⟩, happ.trace⟩

/-! ## The servo positions -/

theorem servoWidths_of_servoCw {p : Params} {cw : Nat}
    (h : (p.servoCw = .us500 ∧ cw = 500) ∨ (p.servoCw = .us2500 ∧ cw = 2500)) :
    servoCwUs p = BitVec.ofNat 16 cw ∧ servoCcwUs p = BitVec.ofNat 16 (3000 - cw) := by
  rcases h with ⟨hcw, rfl⟩ | ⟨hcw, rfl⟩ <;> simp [servoCcwUs, servoCwUs, hcw]

/-- Every position has a legal width (10_state.md R51). -/
theorem legalWidth_positionWidth (p : Params) (pos : Position) : LegalWidth (positionWidth p pos) := by
  cases pos with
  | center => exact .inr (.inl rfl)
  | fullCw => cases h : p.servoCw <;> simp [LegalWidth, positionWidth, servoCwUs, h]
  | fullCcw => cases h : p.servoCw <;> simp [LegalWidth, positionWidth, servoCcwUs, servoCwUs, h]

/-- Settles O38, with the widths of the three positions for either value of `SERVO_CW_US`. -/
theorem servoCommandsSetThePulseWidth : Obligations.ServoCommandsSetThePulseWidth := by
  intro s cw hcw
  obtain ⟨hcwWidth, hccwWidth⟩ := servoWidths_of_servoCw hcw
  refine ⟨⟨rfl, hcwWidth, hccwWidth⟩, fun hb => ⟨?_, ?_, ?_⟩⟩
  · exact exec_of_host_of_not_busy hb rfl
  · rw [exec_of_host_of_not_busy hb rfl, effect, hcwWidth, State.setPulseWidth, State.respond]
  · rw [exec_of_host_of_not_busy hb rfl, effect, hccwWidth, State.setPulseWidth, State.respond]

/-! ## What an instruction does to the PWM group -/

/-- The PWM group of `t` is that of `s`, or that of `s` with the servo sent to a position. -/
def State.ServoMoves (s t : State) : Prop :=
  t.pwm = s.pwm ∨ ∃ pos, t.pwm = { s.pwm with pulseWidth := positionWidth s.params pos }

theorem State.lockedStep_servo (s : State) (e : Dir) (pl : Bool) : s.ServoMoves (s.lockedStep e pl) := by
  unfold State.lockedStep
  dsimp only
  split
  · rcases (s.setLock (s.lock.takeEdge e)).evaluate_cases with ⟨-, h⟩ | ⟨-, -, h⟩ | ⟨-, -, h⟩ <;> rw [h]
    · exact .inr ⟨s.params.posUnlocked, rfl⟩
    · exact .inl rfl
    · exact .inl rfl
  · exact .inl rfl

theorem State.unlockedStep_servo (s : State) (pboth pr sw : Bool) : s.ServoMoves (s.unlockedStep pboth pr sw) := by
  unfold State.unlockedStep
  split
  · exact .inr ⟨s.params.posLocked, rfl⟩
  · split <;> exact .inl rfl

/-- The procedure of an invocation moves the servo only to a position (43_lock_fsm.md R203). -/
theorem State.lockProcedure_servo (s : State) (pl pr pboth sw : Bool) (rel : Option (BitVec 4)) :
    s.ServoMoves (s.lockProcedure pl pr pboth sw rel) := by
  unfold State.lockProcedure
  split
  · exact .inl rfl
  · exact s.clearEdge.lockedStep_servo _ _
  · exact s.clearEdge.unlockedStep_servo _ _ _
  · exact .inl rfl

theorem State.finishInvocation_pwm (s : State) : s.finishInvocation.pwm = s.pwm := by
  rcases s.finishInvocation_cases with ⟨-, e⟩ | ⟨-, e⟩
  · rw [e]
  · rw [e, State.emitDisplay_pwm]

theorem lockCtrlRun_servo (bl br sw : Bool) (key : Option (BitVec 4)) (s : State) :
    s.ServoMoves (lockCtrlRun bl br sw key s) := by
  unfold lockCtrlRun State.ServoMoves
  dsimp only
  rw [State.respond_pwm, State.finishInvocation_pwm]
  exact (s.setLock _).lockProcedure_servo _ _ _ _ _

theorem evTmrtickRun_pwm (tid : BitVec 8) (s : State) :
    ∃ n, (evTmrtickRun tid s).pwm = (Pwm.tick s.params)^[n] s.pwm := by
  unfold evTmrtickRun
  split
  · exact ⟨0, rfl⟩
  · exact ⟨_, State.foldl_fireSlot_pwm _ _ _⟩

theorem State.tickTicker_params (s : State) (t : Fin 2) : (s.tickTicker t).params = s.params :=
  (s.tickTicker_appends t).params

theorem State.tickTicker_pwm_iterate (s : State) (t : Fin 2) :
    ∃ n, (s.tickTicker t).pwm = (Pwm.tick s.params)^[n] s.pwm := by
  rw [State.tickTicker_pwm]
  split
  · exact ⟨1, rfl⟩
  · exact ⟨0, rfl⟩

theorem State.blinkAdvance_pwm (s : State) : s.blinkAdvance.pwm = s.pwm := by
  rw [s.blinkAdvance_frame.1]

theorem evUstickRun_pwm (s : State) : ∃ n, (evUstickRun s).pwm = (Pwm.tick s.params)^[n] s.pwm := by
  obtain ⟨m, hm⟩ := State.tickTicker_pwm_iterate { s with usCounter := s.usCounter + 1#32 } 0
  obtain ⟨n, hn⟩ := (State.tickTicker { s with usCounter := s.usCounter + 1#32 } 0).tickTicker_pwm_iterate 1
  rw [State.tickTicker_params, hm, ← Function.iterate_add_apply] at hn
  exact ⟨n + m, (State.blinkAdvance_pwm _).trans hn⟩

/-- All an instruction can do to the PWM group: a number of PWM ticks (none for most), a servo position, or the values of
a reset (10_state.md R69). -/
theorem effect_pwm_cases (i : Instr) (s : State) :
    (∃ n, (effect i s).pwm = (Pwm.tick s.params)^[n] s.pwm) ∨
    (∃ pos, (effect i s).pwm = { s.pwm with pulseWidth := positionWidth s.params pos }) ∨
    (effect i s).pwm = Pwm.initial s.params := by
  cases i with
  | tmrConfig tid period => exact .inl ⟨0, (tmrConfigRun_answer tid period s).pwm⟩
  | tmrRegisr tid slot hid => exact .inl ⟨0, (tmrRegisrRun_answer tid slot hid s).pwm⟩
  | tmrReset tid => exact .inl ⟨0, (tmrResetRun_answer tid s).pwm⟩
  | tmrRegper tid hid period => exact .inl ⟨0, (tmrRegperRun_answer tid hid period s).pwm⟩
  | tmrResetper tid => exact .inl ⟨0, (tmrResetperRun_answer tid s).pwm⟩
  | srvCenter => exact .inr (.inl ⟨.center, rfl⟩)
  | srvCw => exact .inr (.inl ⟨.fullCw, rfl⟩)
  | srvCcw => exact .inr (.inl ⟨.fullCcw, rfl⟩)
  | lockCtrl bl br sw kv key =>
    rcases lockCtrlRun_servo bl br sw (keyOperand kv key) s with hkeep | hmove
    · exact .inl ⟨0, hkeep⟩
    · exact .inr (.inl hmove)
  | evTmrtick tid => exact .inl (evTmrtickRun_pwm tid s)
  | evUstick => exact .inl (evUstickRun_pwm s)
  | evPorst => exact .inr (.inr rfl)
  | evSoftrst => exact .inr (.inr rfl)
  | qdSample => exact .inl ⟨0, rfl⟩
  | qdGetdir => exact .inl ⟨0, rfl⟩
  | lockRstcomb => exact .inl ⟨0, rfl⟩
  | lockCheck => exact .inl ⟨0, rfl⟩
  | evQdedge code => exact .inl ⟨0, rfl⟩

/-! ## The bounds of the PWM countdowns -/

theorem Pwm.fallingTest_eq (w : Pwm) :
    w.fallingTest = { w with out := w.out && decide (0 < w.nextFall.toInt) } := by
  unfold Pwm.fallingTest
  split
  · rename_i h; rw [decide_eq_false (Int.not_lt.2 h), Bool.and_false]
  · rename_i h; rw [decide_eq_true (Int.not_le.1 h), Bool.and_true]

/-- The tick when the rising countdown runs out: both countdowns are loaded (42_pwm_servo.md R181). -/
theorem Pwm.tick_of_rise_due {p : Params} {w : Pwm}
    (h : (w.nextRise - BitVec.ofNat 32 p.pwmTickUs).toInt ≤ 0) :
    w.tick p = { nextRise := BitVec.ofNat 32 p.pwmPeriodUs, nextFall := w.pulseWidth.setWidth 32,
                 out := decide (0 < (w.pulseWidth.setWidth 32).toInt), pulseWidth := w.pulseWidth } := by
  have hrise : (w.countDown p).risingTest p = _ := if_pos h
  rw [Pwm.tick, hrise, Pwm.fallingTest_eq]
  rfl

/-- The tick within a period: both countdowns move, and the pin may fall (42_pwm_servo.md R181). -/
theorem Pwm.tick_of_rise_not_due {p : Params} {w : Pwm}
    (h : 0 < (w.nextRise - BitVec.ofNat 32 p.pwmTickUs).toInt) :
    w.tick p = { nextRise := w.nextRise - BitVec.ofNat 32 p.pwmTickUs,
                 nextFall := w.nextFall - BitVec.ofNat 32 p.pwmTickUs,
                 out := w.out && decide (0 < (w.nextFall - BitVec.ofNat 32 p.pwmTickUs).toInt),
                 pulseWidth := w.pulseWidth } := by
  have hrise : (w.countDown p).risingTest p = w.countDown p := if_neg (Int.not_le.2 h)
  rw [Pwm.tick, hrise, Pwm.fallingTest_eq]
  rfl

theorem toInt_ofNat_of_lt {n : Nat} (hn : n < 2 ^ 30) : (BitVec.ofNat 32 n).toInt = n := by
  rw [BitVec.toInt_ofNat', Int.bmod_eq_of_le] <;> omega

/-- An Int32 subtraction that does not wrap. -/
theorem toInt_sub_ofNat {x : BitVec 32} {n : Nat} (hn : n < 2 ^ 30) (hx : -2 ^ 31 ≤ x.toInt - n) :
    (x - BitVec.ofNat 32 n).toInt = x.toInt - n := by
  have hlt := BitVec.toInt_lt (x := x)
  rw [BitVec.toInt_sub, toInt_ofNat_of_lt hn, Int.bmod_eq_of_le] <;> omega

/-- A legal width survives the zero extension to Int32. -/
theorem LegalWidth.toInt_setWidth {v : BitVec 16} (h : LegalWidth v) :
    (v.setWidth 32).toInt = 500 ∨ (v.setWidth 32).toInt = 1500 ∨ (v.setWidth 32).toInt = 2500 := by
  rcases h with rfl | rfl | rfl
  · exact .inl rfl
  · exact .inr (.inl rfl)
  · exact .inr (.inr rfl)

/-- The invariant of the PWM group, with a legal width in the servo register. -/
def Pwm.Bounded (p : Params) (w : Pwm) : Prop := w.Inv p ∧ LegalWidth w.pulseWidth

theorem Pwm.bounded_initial (p : Params) : (Pwm.initial p).Bounded p :=
  ⟨⟨.inl ⟨rfl, rfl⟩, by simp [Pwm.initial]⟩, legalWidth_positionWidth p p.posLocked⟩

theorem Pwm.Bounded.setPosition {p : Params} {w : Pwm} (h : w.Bounded p) (pos : Position) :
    Pwm.Bounded p { w with pulseWidth := positionWidth p pos } :=
  ⟨h.1, legalWidth_positionWidth p pos⟩

/-- The ranges of the two countdowns that the invariant implies (42_pwm_servo.md R185). -/
theorem Pwm.Inv.countdown_bounds {p : Params} {w : Pwm} (hp : p.Wf) (h : w.Inv p) :
    0 ≤ w.nextRise.toInt ∧ w.nextRise.toInt ≤ p.pwmPeriodUs ∧
      -(p.pwmPeriodUs : Int) ≤ w.nextFall.toInt ∧ w.nextFall.toInt ≤ 2500 := by
  obtain ⟨-, -, -, hperiod, -⟩ := hp
  obtain ⟨⟨hr, hf⟩ | ⟨hpos, hle, hf⟩, -⟩ := h
  · rw [hr, hf, BitVec.toInt_zero]; omega
  · omega

/-- A tick that loads the countdowns starts a period, whatever they were. -/
theorem Pwm.bounded_tick_of_rise_due {p : Params} {w : Pwm} (hp : p.Wf) (hw : LegalWidth w.pulseWidth)
    (h : (w.nextRise - BitVec.ofNat 32 p.pwmTickUs).toInt ≤ 0) : (w.tick p).Bounded p := by
  obtain ⟨-, -, -, hperiod, hperiod', -⟩ := hp
  have hload := toInt_ofNat_of_lt hperiod'
  have hwidth := hw.toInt_setWidth
  rw [Pwm.tick_of_rise_due h]
  refine ⟨⟨.inr ?_, decide_eq_true_iff⟩, hw⟩
  dsimp only
  omega

/-- A tick within a period takes the same from both countdowns, and neither wraps. -/
theorem Pwm.bounded_tick_of_rise_not_due {p : Params} {w : Pwm} (hp : p.Wf) (hb : w.Bounded p)
    (h : 0 < (w.nextRise - BitVec.ofNat 32 p.pwmTickUs).toInt) : (w.tick p).Bounded p := by
  obtain ⟨hinv, hw⟩ := hb
  obtain ⟨hrise0, -, hfall0, -⟩ := hinv.countdown_bounds hp
  obtain ⟨-, -, -, hperiod, hperiod', htick, htick', -⟩ := hp
  obtain ⟨hcount, hout⟩ := hinv
  have hrise := toInt_sub_ofNat (x := w.nextRise) htick' (by omega)
  have hfall := toInt_sub_ofNat (x := w.nextFall) htick' (by omega)
  rw [hrise] at h
  rw [Pwm.tick_of_rise_not_due (by rwa [hrise])]
  refine ⟨⟨.inr ?_, ?_⟩, hw⟩
  · rcases hcount with ⟨hr, -⟩ | hcount
    · rw [hr, BitVec.toInt_zero] at h; omega
    · dsimp only; omega
  · simp only [Bool.and_eq_true, decide_eq_true_eq, hout, hfall]
    omega

theorem Pwm.Bounded.tick {p : Params} {w : Pwm} (hp : p.Wf) (hb : w.Bounded p) : (w.tick p).Bounded p := by
  rcases lt_or_ge 0 (w.nextRise - BitVec.ofNat 32 p.pwmTickUs).toInt with h | h
  · exact Pwm.bounded_tick_of_rise_not_due hp hb h
  · exact Pwm.bounded_tick_of_rise_due hp hb.2 h

theorem effect_pwm_bounded {s : State} (hp : s.params.Wf) (hb : s.pwm.Bounded s.params) (i : Instr) :
    (effect i s).pwm.Bounded s.params := by
  rcases effect_pwm_cases i s with ⟨n, h⟩ | ⟨pos, h⟩ | h <;> rw [h]
  · exact Function.Iterate.rec (Pwm.Bounded s.params) hb (fun _ hw => hw.tick hp) n
  · exact hb.setPosition pos
  · exact Pwm.bounded_initial _

theorem step_pwm_bounded {s t : State} (hp : s.params.Wf) (hb : s.pwm.Bounded s.params) (h : step s = .next t) :
    t.pwm.Bounded s.params := by
  obtain ⟨u, htakes, rfl | rfl | ⟨i, -, rfl⟩⟩ := step_takes h
  · rwa [htakes.pwm]
  · rwa [State.respond_pwm, htakes.pwm]
  · rw [← htakes.params] at hp hb ⊢
    exact effect_pwm_bounded hp (by rwa [htakes.pwm]) i

/-- Settles O16: every step keeps the invariant of the countdowns, and their ranges follow from it. -/
theorem everyStepKeepsThePwmBounds : Obligations.EveryStepKeepsThePwmBounds := by
  intro s t hp hw hinv h
  obtain ⟨hinv', hw'⟩ := step_pwm_bounded hp ⟨hinv, hw⟩ h
  have hbounds := hinv'.countdown_bounds hp
  obtain ⟨-, -, -, -, hperiod, -⟩ := hp
  refine ⟨by rwa [step_params h], hw', ?_⟩
  omega

end Sys2Proof.Machine
end

section
/-! PROOFS of the family 10_state: which instruction writes which group of state, and what every step keeps of it. -/

namespace Sys2Proof.Machine

/-! ## The codes of the enumerations -/

theorem QState.code_lt (q : QState) : q.code.toNat < 5 := by
  cases q <;> decide

theorem Dir.code_ne_three (d : Dir) : d.code ≠ 0b11#2 := by
  cases d <;> decide

/-- A sample code names the quadrature state of its zero-extension (10_state.md R34). -/
theorem qstate_code (c : BitVec 2) : (qstate c).code = c.setWidth 3 := by
  decide +revert

/-- Settles O6: the fixed codes by computation, the three general facts by their lemmas. -/
theorem enumerationCodes : Obligations.EnumerationCodes :=
  ⟨rfl, rfl, rfl, rfl, rfl, QState.code_lt, qstate_code, rfl, rfl, rfl, Dir.code_ne_three⟩

/-! ## What the timer commands answer -/

/-- All TMR.CONFIG can do: refuse, or configure its timer from a candidate of the search (41_timer.md R142). -/
theorem tmrConfigRun_cases (tid : BitVec 8) (period : BitVec 32) (s : State) :
    tmrConfigRun tid period s = s.respond .noSolution none ∨
    ∃ t c v, searchBest s.params.prescalers[t.val] s.params.fClkHz s.params.timerWidth[t.val] period.toNat = some c ∧
      tmrConfigRun tid period s =
        (s.setTimer t (s.tmr[t.val].configured s.params.timerWidth[t.val] c.presc c.count)).respond .ok v := by
  unfold tmrConfigRun
  split
  · exact .inl rfl
  · split
    · exact .inl rfl
    · split
      · exact .inl rfl
      · rename_i c hc
        exact .inr ⟨_, c, _, hc, rfl⟩

/-- TMR.REGISR on a slot below the slot count of a valid timer (41_timer.md R150). -/
theorem tmrRegisrRun_of_usable {tid : BitVec 8} {slot : BitVec 4} {s : State} {t : Fin 2} {k : Fin 3}
    (ht : tid.toNat = t.val) (hk : slot.toNat = k.val) (hslot : k.val < s.tmr[t.val].nslots) (hid : BitVec 8) :
    tmrRegisrRun tid slot hid s = (s.setTimer t (s.tmr[t.val].register k hid)).respond .ok (some (.one 1#1)) := by
  simp only [tmrRegisrRun, timerIndex_eq_some.2 ht, slotIndex_eq_some.2 ⟨hk, hk ▸ hslot⟩]

/-- TMR.REGISR on anything else (41_timer.md R150, 60_exceptions.md R262). -/
theorem tmrRegisrRun_of_unusable {tid : BitVec 8} {slot : BitVec 4} {s : State}
    (h : ∀ t : Fin 2, tid.toNat = t.val → s.tmr[t.val].nslots ≤ slot.toNat) (hid : BitVec 8) :
    tmrRegisrRun tid slot hid s = s.respond .fail (some (.one 0#1)) := by
  unfold tmrRegisrRun
  split
  · rfl
  · rename_i t ht
    simp only [slotIndex_eq_none.2 (h t (timerIndex_eq_some.1 ht))]

theorem tmrRegisrRun_cases (tid : BitVec 8) (slot : BitVec 4) (hid : BitVec 8) (s : State) :
    tmrRegisrRun tid slot hid s = s.respond .fail (some (.one 0#1)) ∨
    ∃ (t : Fin 2) (k : Fin 3), k.val < s.tmr[t.val].nslots ∧
      tmrRegisrRun tid slot hid s = (s.setTimer t (s.tmr[t.val].register k hid)).respond .ok (some (.one 1#1)) := by
  by_cases h : ∀ t : Fin 2, tid.toNat = t.val → s.tmr[t.val].nslots ≤ slot.toNat
  · exact .inl (tmrRegisrRun_of_unusable h hid)
  · push Not at h
    obtain ⟨t, ht, hslot⟩ := h
    have hlt : slot.toNat < 3 := hslot.trans_le (Timer.nslots_le _)
    exact .inr ⟨t, ⟨slot.toNat, hlt⟩, hslot, tmrRegisrRun_of_usable ht rfl hslot hid⟩

theorem tmrResetRun_cases (tid : BitVec 8) (s : State) :
    tmrResetRun tid s = s.respond .fail none ∨
    ∃ t : Fin 2, tmrResetRun tid s = (s.setTimer t { s.tmr[t.val] with tcnt := 0 }).respond .ok none := by
  unfold tmrResetRun
  split
  · exact .inl rfl
  · exact .inr ⟨_, rfl⟩

theorem tmrRegperRun_cases (tid hid : BitVec 8) (period : BitVec 32) (s : State) :
    tmrRegperRun tid hid period s = s.respond .fail (some (.one 0#1)) ∨
    ∃ t : Fin 2, 1 ≤ period.toNat ∧ tmrRegperRun tid hid period s =
      (s.setTicker t { attached := true, period := period, handler := hid, elapsed := 0#32 }).respond .ok
        (some (.one 1#1)) := by
  unfold tmrRegperRun
  split
  · exact .inl rfl
  · split
    · exact .inl rfl
    · rename_i hperiod
      exact .inr ⟨_, Nat.not_lt.1 hperiod, rfl⟩

theorem tmrResetperRun_cases (tid : BitVec 8) (s : State) :
    tmrResetperRun tid s = s.respond .fail none ∨
    ∃ t : Fin 2, tmrResetperRun tid s = (s.setTicker t s.tk[t.val].restarted).respond .ok none := by
  unfold tmrResetperRun
  split
  · exact .inl rfl
  · exact .inr ⟨_, rfl⟩

/-- The usable slots of each mode (10_state.md R44). -/
theorem Timer.lt_nslots_iff (tm : Timer) (k : Fin 3) :
    k.val < tm.nslots ↔ tm.mode = .normal ∨ (tm.mode = .ctc ∧ k.val < 2) := by
  have := k.isLt
  cases h : tm.mode <;> simp [Timer.nslots, h]

/-- Settles O25: in each mode, the slot operand is compared with the slot count. -/
theorem tmrRegisrRegistersUsableSlots : Obligations.TmrRegisrRegistersUsableSlots := by
  intro s tid slot hid hb
  rw [exec_of_host_of_not_busy hb rfl, effect]
  constructor
  · intro t k ht hk hmode
    rw [tmrRegisrRun_of_usable ht hk ((Timer.lt_nslots_iff _ k).2 hmode)]
    rfl
  · intro hbad
    rw [tmrRegisrRun_of_unusable]
    · rfl
    · intro t ht
      have hle := s.tmr[t.val].nslots_le
      rcases hbad with htid | hslot | ⟨u, hu, hmode⟩
      · omega
      · omega
      · obtain rfl : u = t := Fin.ext (hu.symm.trans ht)
        rcases hmode with hoff | ⟨hctc, hslot⟩
        · simp [Timer.nslots, hoff]
        · simp [Timer.nslots, hctc, hslot]

/-! ## The groups of state and their writers -/

/-- The groups of 10_state.md R69. -/
inductive Group where
  | pins
  | history
  | edge
  | timers
  | tickers
  | clock
  | pwm
  | servo
  | comb
  | lock
  | blink

/-- The group has the same value in both states. -/
def Group.Same (s t : State) : Group → Prop
  | .pins => t.qd.pins = s.qd.pins
  | .history => t.qd.state = s.qd.state ∧ t.qd.last = s.qd.last
  | .edge => t.qd.dir = s.qd.dir
  | .timers => t.tmr = s.tmr
  | .tickers => t.tk = s.tk
  | .clock => t.usCounter = s.usCounter
  | .pwm => t.pwm.nextRise = s.pwm.nextRise ∧ t.pwm.nextFall = s.pwm.nextFall ∧ t.pwm.out = s.pwm.out
  | .servo => t.pwm.pulseWidth = s.pwm.pulseWidth
  | .comb => t.lock.comb = s.lock.comb
  | .lock => t.lock = { s.lock with comb := t.lock.comb }
  | .blink => t.blink = s.blink

/-- The opcodes of the writers of a group (10_state.md R69, 30_encoding.md R102). -/
def Group.writers : Group → List (BitVec 8)
  | .pins => [0x80#8]
  | .history => [0x80#8, 0x8E#8, 0x8F#8]
  | .edge => [0x80#8, 0x02#8, 0x30#8, 0x8E#8, 0x8F#8]
  | .timers => [0x10#8, 0x11#8, 0x12#8, 0x81#8, 0x8E#8, 0x8F#8]
  | .tickers => [0x13#8, 0x14#8, 0x82#8, 0x8E#8, 0x8F#8]
  | .clock => [0x82#8, 0x8E#8, 0x8F#8]
  | .pwm => [0x81#8, 0x82#8, 0x8E#8, 0x8F#8]
  | .servo => [0x20#8, 0x21#8, 0x22#8, 0x30#8, 0x8E#8, 0x8F#8]
  | .comb => [0x30#8, 0x31#8, 0x8E#8]
  | .lock => [0x30#8, 0x8E#8, 0x8F#8]
  | .blink => [0x30#8, 0x82#8, 0x8E#8, 0x8F#8]

/-- The groups an instruction may write, read from its operation. -/
def writes : Instr → List Group
  | .qdSample => []
  | .qdGetdir => [.edge]
  | .tmrConfig _ _ => [.timers]
  | .tmrRegisr _ _ _ => [.timers]
  | .tmrReset _ => [.timers]
  | .tmrRegper _ _ _ => [.tickers]
  | .tmrResetper _ => [.tickers]
  | .srvCenter => [.servo]
  | .srvCw => [.servo]
  | .srvCcw => [.servo]
  | .lockCtrl _ _ _ _ _ => [.edge, .servo, .comb, .lock, .blink]
  | .lockRstcomb => [.comb]
  | .lockCheck => []
  | .evQdedge _ => [.pins, .history, .edge]
  | .evTmrtick _ => [.timers, .pwm]
  | .evUstick => [.tickers, .clock, .pwm, .blink]
  | .evPorst => [.history, .edge, .timers, .tickers, .clock, .pwm, .servo, .comb, .lock, .blink]
  | .evSoftrst => [.history, .edge, .timers, .tickers, .clock, .pwm, .servo, .lock, .blink]

/-- Every group an instruction may write lists it as a writer. -/
theorem opcode_mem_writers {i : Instr} : ∀ g ∈ writes i, opcode i ∈ g.writers := by
  cases i <;> simp [writes, Group.writers, opcode]

theorem Group.Same.refl (s : State) (g : Group) : g.Same s s := by
  cases g <;> simp [Group.Same]

theorem Group.Same.trans {s t u : State} {g : Group} (h : g.Same s t) (k : g.Same t u) : g.Same s u := by
  cases g with
  | history | pwm => simp_all [Group.Same]
  | lock =>
    simp only [Group.Same] at *
    rw [k, h]
  | _ => exact Eq.trans k h

/-- `t` is `s` but for the groups listed. -/
def State.WritesOnly (s t : State) (gs : List Group) : Prop := ∀ g, g ∉ gs → g.Same s t

theorem State.WritesOnly.refl (s : State) (gs : List Group) : s.WritesOnly s gs := fun g _ => .refl s g

theorem State.WritesOnly.trans {s t u : State} {gs : List Group} (h : s.WritesOnly t gs) (k : t.WritesOnly u gs) :
    s.WritesOnly u gs :=
  fun g hg => (h g hg).trans (k g hg)

theorem State.WritesOnly.mono {s t : State} {gs gs' : List Group} (h : s.WritesOnly t gs) (hsub : gs ⊆ gs') :
    s.WritesOnly t gs' :=
  fun g hg => h g fun hm => hg (hsub hm)

/-- To show what is written, look at each group: it is listed, or it has kept its value. -/
theorem State.writesOnly_of {s t : State} {gs : List Group} (h : ∀ g : Group, g ∈ gs ∨ g.Same s t) :
    s.WritesOnly t gs :=
  fun g hg => (h g).resolve_left hg

/-- A response is outside the groups. -/
theorem State.WritesOnly.respond {s t : State} {gs : List Group} (h : s.WritesOnly t gs) (st : Status)
    (v : Option RespValue) : s.WritesOnly (t.respond st v) gs :=
  fun g hg => (h g hg).trans (by cases g <;> simp [Group.Same])

theorem State.setTimer_writesOnly (s : State) (t : Fin 2) (tm : Timer) : s.WritesOnly (s.setTimer t tm) [.timers] :=
  State.writesOnly_of fun g => by cases g <;> simp [Group.Same]

theorem State.setTicker_writesOnly (s : State) (t : Fin 2) (k : Ticker) :
    s.WritesOnly (s.setTicker t k) [.tickers] :=
  State.writesOnly_of fun g => by cases g <;> simp [Group.Same]

theorem State.setPulseWidth_writesOnly (s : State) (w : BitVec 16) : s.WritesOnly (s.setPulseWidth w) [.servo] :=
  State.writesOnly_of fun g => by cases g <;> simp [Group.Same]

theorem State.clearEdge_writesOnly (s : State) : s.WritesOnly s.clearEdge [.edge] :=
  State.writesOnly_of fun g => by cases g <;> simp [Group.Same]

/-- A handler writes the PWM countdowns and pin alone (42_pwm_servo.md R180). -/
theorem State.HandlerFrame.writesOnly {s t : State} (h : s.HandlerFrame t) : s.WritesOnly t [.pwm] := by
  obtain ⟨heq, hpulse, -⟩ := h
  intro g hg
  cases g with
  | pwm => simp at hg
  | servo => exact hpulse
  | _ => rw [heq]; simp [Group.Same]

theorem State.LockFrame.writesOnly {s t : State} (h : s.LockFrame t) :
    s.WritesOnly t [.edge, .servo, .comb, .lock, .blink] := by
  obtain ⟨heq, hqd, hpwm⟩ := h
  intro g hg
  cases g with
  | edge | servo | comb | lock | blink => simp at hg
  | pins | history => rcases hqd with e | e <;> simp [Group.Same, e]
  | pwm => rw [Group.Same, hpwm]; exact ⟨rfl, rfl, rfl⟩
  | _ => rw [heq]; simp [Group.Same]

/-- `t` is `s` but for the blink group and a longer trace. -/
theorem State.writesOnly_blink {s t : State} (h : t = { s with blink := t.blink, trace := t.trace }) :
    s.WritesOnly t [.blink] := by
  intro g hg
  cases g with
  | blink => simp at hg
  | _ => rw [h]; simp [Group.Same]

theorem State.finishInvocation_writesOnly (s : State) : s.WritesOnly s.finishInvocation [.blink] := by
  rcases s.finishInvocation_cases with ⟨-, e⟩ | ⟨-, e⟩ <;> rw [e] <;> exact State.writesOnly_blink rfl

theorem State.blinkAdvance_writesOnly (s : State) : s.WritesOnly s.blinkAdvance [.blink] :=
  State.writesOnly_blink s.blinkAdvance_frame.1

theorem lockCtrlRun_writesOnly (bl br sw : Bool) (key : Option (BitVec 4)) (s : State) :
    s.WritesOnly (lockCtrlRun bl br sw key s) [.edge, .servo, .comb, .lock, .blink] :=
  (((s.setLock_frame _).trans (State.lockProcedure_frame _ _ _ _ _ _)).writesOnly.trans
    ((State.finishInvocation_writesOnly _).mono (by simp))).respond .ok none

theorem evTmrtickRun_writesOnly (tid : BitVec 8) (s : State) :
    s.WritesOnly (evTmrtickRun tid s) [.timers, .pwm] := by
  rcases evTmrtickRun_cases tid s with ⟨-, e⟩ | ⟨t, -, hframe⟩
  · rw [e]; exact .refl s _
  · exact ((s.setTimer_writesOnly t _).mono (by simp)).trans (hframe.writesOnly.mono (by simp))

theorem State.tickTicker_writesOnly (s : State) (t : Fin 2) : s.WritesOnly (s.tickTicker t) [.tickers, .pwm] :=
  ((s.setTicker_writesOnly t _).mono (by simp)).trans ((s.tickTicker_frame t).writesOnly.mono (by simp))

theorem State.tickClock_writesOnly (s : State) (n : BitVec 32) :
    s.WritesOnly { s with usCounter := n } [.clock] :=
  State.writesOnly_of fun g => by cases g <;> simp [Group.Same]

/-- EV.USTICK up to its last part, the blink (41_timer.md R163). -/
def State.microsecond (s : State) : State :=
  (State.tickTicker { s with usCounter := s.usCounter + 1#32 } 0).tickTicker 1

theorem evUstickRun_eq (s : State) : evUstickRun s = s.microsecond.blinkAdvance := rfl

theorem State.microsecond_writesOnly (s : State) : s.WritesOnly s.microsecond [.tickers, .clock, .pwm] :=
  (((s.tickClock_writesOnly _).mono (by simp)).trans ((State.tickTicker_writesOnly _ 0).mono (by simp))).trans
    ((State.tickTicker_writesOnly _ 1).mono (by simp))

theorem evUstickRun_writesOnly (s : State) : s.WritesOnly (evUstickRun s) [.tickers, .clock, .pwm, .blink] := by
  rw [evUstickRun_eq]
  exact (s.microsecond_writesOnly.mono (by simp)).trans (s.microsecond.blinkAdvance_writesOnly.mono (by simp))

@[simp] theorem Lock.initial_comb (comb : Vector (BitVec 4) 3) : (Lock.initial comb).comb = comb := rfl

/-- An instruction that is not held writes only its groups (10_state.md R69). -/
theorem effect_writesOnly (i : Instr) (s : State) : s.WritesOnly (effect i s) (writes i) := by
  cases i with
  | qdSample | lockCheck => exact (State.WritesOnly.refl s _).respond _ _
  | qdGetdir => exact s.clearEdge_writesOnly.respond _ _
  | tmrConfig tid period =>
    rcases tmrConfigRun_cases tid period s with e | ⟨t, c, v, -, e⟩ <;> rw [effect, e]
    · exact (State.WritesOnly.refl s _).respond _ _
    · exact (s.setTimer_writesOnly t _).respond _ _
  | tmrRegisr tid slot hid =>
    rcases tmrRegisrRun_cases tid slot hid s with e | ⟨t, k, -, e⟩ <;> rw [effect, e]
    · exact (State.WritesOnly.refl s _).respond _ _
    · exact (s.setTimer_writesOnly t _).respond _ _
  | tmrReset tid =>
    rcases tmrResetRun_cases tid s with e | ⟨t, e⟩ <;> rw [effect, e]
    · exact (State.WritesOnly.refl s _).respond _ _
    · exact (s.setTimer_writesOnly t _).respond _ _
  | tmrRegper tid hid period =>
    rcases tmrRegperRun_cases tid hid period s with e | ⟨t, -, e⟩ <;> rw [effect, e]
    · exact (State.WritesOnly.refl s _).respond _ _
    · exact (s.setTicker_writesOnly t _).respond _ _
  | tmrResetper tid =>
    rcases tmrResetperRun_cases tid s with e | ⟨t, e⟩ <;> rw [effect, e]
    · exact (State.WritesOnly.refl s _).respond _ _
    · exact (s.setTicker_writesOnly t _).respond _ _
  | srvCenter | srvCw | srvCcw => exact (s.setPulseWidth_writesOnly _).respond _ _
  | lockCtrl bl br sw kv key => exact lockCtrlRun_writesOnly bl br sw (keyOperand kv key) s
  | evTmrtick tid => exact evTmrtickRun_writesOnly tid s
  | evUstick => exact evUstickRun_writesOnly s
  | lockRstcomb | evQdedge _ | evPorst | evSoftrst =>
    exact State.writesOnly_of fun g => by cases g <;> simp [writes, effect, Group.Same]

theorem exec_same {i : Instr} {s t : State} (h : exec i s = .next t) {g : Group} (hg : opcode i ∉ g.writers) :
    g.Same s t := by
  rcases exec_cases h with ⟨-, -, rfl⟩ | ⟨-, rfl⟩
  · exact .refl _ g
  · exact effect_writesOnly i s g fun hm => hg (opcode_mem_writers g hm)

/-- Settles O57, group by group. -/
theorem writersOfEachStateGroup : Obligations.WritersOfEachStateGroup := by
  intro i s t h
  have keep : ∀ g : Group, opcode i ∉ g.writers → g.Same s t := fun g => exec_same h
  exact ⟨keep .pins, keep .history, keep .edge, keep .timers, keep .tickers, keep .clock, keep .pwm, keep .servo,
    keep .comb, keep .lock, keep .blink⟩

/-! ## The writers of the combination -/

/-- An edge writes the entry progress alone (43_lock_fsm.md R210). -/
theorem Lock.takeEdge_frame (l : Lock) (e : Dir) :
    l.takeEdge e = { l with dial := (l.takeEdge e).dial, stage := (l.takeEdge e).stage,
                            expected := (l.takeEdge e).expected, entered := (l.takeEdge e).entered,
                            vc := (l.takeEdge e).vc } := by
  rcases l.takeEdge_cases e with ⟨-, h⟩ | ⟨-, -, h⟩ | ⟨-, -, hs, h⟩ | ⟨-, -, -, h⟩ <;> rw [h] <;> rfl

theorem Lock.takeEdge_comb (l : Lock) (e : Dir) : (l.takeEdge e).comb = l.comb := by
  rw [l.takeEdge_frame e]

theorem Lock.takeEdge_lkState (l : Lock) (e : Dir) : (l.takeEdge e).lkState = l.lkState := by
  rw [l.takeEdge_frame e]

theorem State.evaluate_comb (s : State) : s.evaluate.lock.comb = s.lock.comb := by
  rcases s.evaluate_cases with ⟨-, e⟩ | ⟨-, -, e⟩ | ⟨-, -, e⟩ <;> rw [e] <;> rfl

/-- All `locked_step` can do: take the edge, and evaluate after it (43_lock_fsm.md R210, R218). -/
theorem State.lockedStep_cases (s : State) (e : Dir) (pl : Bool) :
    s.lockedStep e pl = s.setLock (s.lock.takeEdge e) ∨
    s.lockedStep e pl = (s.setLock (s.lock.takeEdge e)).evaluate := by
  unfold State.lockedStep
  dsimp only
  split
  · exact .inr rfl
  · exact .inl rfl

/-- All `unlocked_step` can do (43_lock_fsm.md R224 to R227). -/
theorem State.unlockedStep_cases (s : State) (pboth pr sw : Bool) :
    s.unlockedStep pboth pr sw = s.relock ∨ s.unlockedStep pboth pr sw = s.setLock s.lock.enterChanging ∨
    s.unlockedStep pboth pr sw = s := by
  unfold State.unlockedStep
  split
  · exact .inl rfl
  · split
    · exact .inr (.inl rfl)
    · exact .inr (.inr rfl)

/-- All a key stroke can do: nothing, buffer a tens digit, or fill a slot (43_lock_fsm.md R232). -/
theorem Lock.keyStroke_cases (l : Lock) (k : BitVec 4) :
    l.keyStroke k = l ∨ (k.toNat ≤ 9 ∧ l.keyStroke k = { l with chgTens := some k }) ∨
    ∃ tens, ∃ h : l.chgIdx.val < 6, k.toNat ≤ 9 ∧ l.chgTens = some tens ∧
      l.keyStroke k = { l with
        chgSlot := l.chgSlot.set l.chgIdx.val (BitVec.ofNat 7 (10 * tens.toNat + k.toNat)) h
        chgIdx := ⟨l.chgIdx.val + 1, by omega⟩
        chgTens := none } := by
  unfold Lock.keyStroke
  split
  · exact .inl rfl
  · rename_i hk
    split
    · rename_i hidx
      split
      · exact .inr (.inl ⟨Nat.not_lt.1 hk, rfl⟩)
      · rename_i tens htens
        exact .inr (.inr ⟨tens, hidx, Nat.not_lt.1 hk, htens, rfl⟩)
    · exact .inl rfl

/-- All `changing_step` can do: commit with the switch back, else take a stroke, if there is one (43_lock_fsm.md R228). -/
theorem Lock.changingStep_cases (l : Lock) (sw : Bool) (rel : Option (BitVec 4)) :
    (sw = false ∧ l.changingStep sw rel = l.commit) ∨ l.changingStep sw rel = l ∨
    ∃ k, l.changingStep sw rel = l.keyStroke k := by
  cases sw with
  | false => exact .inl ⟨rfl, rfl⟩
  | true =>
    cases rel with
    | none => exact .inr (.inl rfl)
    | some k => exact .inr (.inr ⟨k, rfl⟩)

/-- The commit, with the combination it stores (43_lock_fsm.md R233). -/
theorem Lock.commit_eq (l : Lock) :
    l.commit = { l.clearStaging with
      comb := if l.commitValid then l.stagedComb else l.comb, lkState := .unlocked } := by
  unfold Lock.commit
  cases l.commitValid <;> rfl

theorem Lock.keyStroke_comb (l : Lock) (k : BitVec 4) : (l.keyStroke k).comb = l.comb := by
  rcases l.keyStroke_cases k with e | ⟨-, e⟩ | ⟨tens, h, -, -, e⟩ <;> rw [e]

/-- Only a valid commit changes the combination in CHANGING (43_lock_fsm.md R230, R233). -/
theorem Lock.changingStep_comb (l : Lock) (sw : Bool) (rel : Option (BitVec 4)) :
    (l.changingStep sw rel).comb = l.comb ∨
    (sw = false ∧ l.commitValid = true ∧ (l.changingStep sw rel).comb = l.stagedComb) := by
  rcases l.changingStep_cases sw rel with ⟨hsw, e⟩ | e | ⟨k, e⟩ <;> rw [e]
  · rw [Lock.commit_eq]
    cases hv : l.commitValid with
    | false => exact .inl rfl
    | true => exact .inr ⟨hsw, rfl, rfl⟩
  · exact .inl rfl
  · exact .inl (l.keyStroke_comb k)

theorem State.lockProcedure_comb (s : State) (pl pr pboth sw : Bool) (rel : Option (BitVec 4)) :
    (s.lockProcedure pl pr pboth sw rel).lock.comb = s.lock.comb ∨
    (s.lock.lkState = .changing ∧ sw = false ∧ s.lock.commitValid = true ∧
      (s.lockProcedure pl pr pboth sw rel).lock.comb = s.lock.stagedComb) := by
  unfold State.lockProcedure
  split
  · exact .inl rfl
  · left
    rcases s.clearEdge.lockedStep_cases s.qd.dir pl with e | e <;> rw [e]
    · exact s.lock.takeEdge_comb _
    · exact (State.evaluate_comb _).trans (s.lock.takeEdge_comb _)
  · left
    rcases s.clearEdge.unlockedStep_cases pboth pr sw with e | e | e <;> rw [e] <;> rfl
  · rename_i hchanging
    rcases s.lock.changingStep_comb sw rel with e | ⟨hsw, hvalid, e⟩
    · exact .inl e
    · exact .inr ⟨hchanging, hsw, hvalid, e⟩

theorem State.finishInvocation_lock (s : State) : s.finishInvocation.lock = s.lock := by
  rcases s.finishInvocation_cases with ⟨-, e⟩ | ⟨-, e⟩ <;> rw [e]
  rfl

theorem lockCtrlRun_comb (bl br sw : Bool) (key : Option (BitVec 4)) (s : State) :
    (lockCtrlRun bl br sw key s).lock.comb = s.lock.comb ∨
    (s.lock.lkState = .changing ∧ sw = false ∧ s.lock.commitValid = true ∧
      (lockCtrlRun bl br sw key s).lock.comb = s.lock.stagedComb) := by
  unfold lockCtrlRun
  dsimp only
  rw [State.respond_lock, State.finishInvocation_lock]
  exact (s.setLock (s.lock.latch bl br key)).lockProcedure_comb _ _ _ _ _

/-- A staged digit in range is stored as it is (43_lock_fsm.md R233). -/
theorem Lock.stagedComb_toNat {l : Lock} (h : ∀ k : Fin 6, l.chgSlot[k.val].toNat ≤ 15) (k : Fin 3) :
    l.stagedComb[k.val].toNat = l.chgSlot[k.val].toNat := by
  have narrow : ∀ j : Fin 6, (l.chgSlot[j.val].setWidth 4).toNat = l.chgSlot[j.val].toNat := by
    intro j
    rw [BitVec.toNat_setWidth, Nat.mod_eq_of_lt (Nat.lt_succ_of_le (h j))]
  obtain rfl | rfl | rfl : k = 0 ∨ k = 1 ∨ k = 2 := by omega
  exacts [narrow 0, narrow 1, narrow 2]

/-- Settles O50: of the three instructions that write the combination, LOCK.CTRL does so only by a valid commit. -/
theorem writersOfTheCombination : Obligations.WritersOfTheCombination := by
  intro i s t h hne
  obtain ⟨-, -, rfl⟩ | ⟨-, rfl⟩ := exec_cases h
  · exact absurd rfl hne
  have hwrites : .comb ∈ writes i := by_contra fun hnot => hne (effect_writesOnly i s .comb hnot)
  cases i with
  | lockRstcomb => exact .inl ⟨rfl, rfl⟩
  | evPorst => exact .inr (.inl rfl)
  | lockCtrl bl br sw kv key =>
    obtain hkeep | ⟨hchanging, rfl, hvalid, hcomb⟩ := lockCtrlRun_comb bl br sw (keyOperand kv key) s
    · exact absurd hkeep hne
    · obtain ⟨hfull, hrepeated, hrange⟩ := s.lock.commitValid_iff.1 hvalid
      refine .inr (.inr ⟨bl, br, kv, key, rfl, hchanging, hfull, hrepeated, hrange, fun k => ?_⟩)
      rw [effect, hcomb]
      exact Lock.stagedComb_toNat hrange k
  | _ => simp [writes] at hwrites

/-! ## The invariant of the timers -/

/-- A property of all entries, after a write of one of them. -/
theorem forall_getElem_set {α : Type} {P : Fin 2 → α → Prop} {v : Vector α 2} (h : ∀ j : Fin 2, P j v[j.val])
    {t : Fin 2} {x : α} (hx : P t x) (j : Fin 2) : P j (v.set t.val x t.isLt)[j.val] := by
  rw [Vector.getElem_set]
  split
  · rename_i heq
    obtain rfl : t = j := Fin.ext heq
    exact hx
  · exact h j

theorem Timer.inv_initial (width : Nat) (ps : List Nat) : Timer.initial.Inv width ps :=
  ⟨by decide, by decide, fun _ => by decide, nofun, nofun⟩

theorem Timer.dropSlots_ie (tm : Timer) (n : Nat) (k : Fin 3) :
    (tm.dropSlots n).ie.getLsbD k.val = (tm.ie.getLsbD k.val && decide (k.val < n)) := by
  rw [Timer.dropSlots, BitVec.getLsbD_and, BitVec.getLsbD_ofNat, Nat.testBit_two_pow_sub_one,
    decide_eq_true k.isLt, Bool.true_and]

theorem Timer.dropSlots_handler (tm : Timer) (n : Nat) (k : Fin 3) :
    (tm.dropSlots n).handler[k.val] = if n ≤ k.val then none else tm.handler[k.val] := by
  simp [Timer.dropSlots]

/-- A configuration keeps the enables and the registrations below the new slot count alone (41_timer.md R147). -/
theorem Timer.configured_ie (tm : Timer) (width p c : Nat) (k : Fin 3) :
    (tm.configured width p c).ie.getLsbD k.val =
      (tm.ie.getLsbD k.val && decide (k.val < (tm.configured width p c).nslots)) :=
  Timer.dropSlots_ie _ _ k

theorem Timer.configured_handler (tm : Timer) (width p c : Nat) (k : Fin 3) :
    (tm.configured width p c).handler[k.val] =
      if (tm.configured width p c).nslots ≤ k.val then none else tm.handler[k.val] :=
  Timer.dropSlots_handler _ _ k

theorem Timer.Inv.configured {width : Nat} {ps : List Nat} {tm : Timer} (h : tm.Inv width ps) {p c : Nat}
    (hp : p ∈ ps) (hc : 1 ≤ c) (hcw : c ≤ 2 ^ width) : (tm.configured width p c).Inv width ps := by
  obtain ⟨henabled, -⟩ := h
  have hmode : (tm.configured width p c).mode = modeFor width c := rfl
  refine ⟨fun k => ?_, fun k hk => ?_, fun hoff => ?_, fun hnormal => ?_, fun hctc => ?_⟩
  · rw [Timer.configured_ie, Timer.configured_handler, henabled k]
    split
    · rename_i hk; simp [hk]
    · rename_i hk; simp [Nat.not_le.1 hk]
  · rw [Timer.configured_ie, decide_eq_false (Nat.not_lt.2 hk), Bool.and_false]
  · rw [hmode, modeFor] at hoff
    split at hoff <;> contradiction
  · rw [hmode, modeFor] at hnormal
    split at hnormal
    · rename_i hfull
      simp [Timer.configured, Timer.dropSlots, compareA, compareB, hp, hfull]
    · contradiction
  · rw [hmode, modeFor] at hctc
    split at hctc
    · contradiction
    · rename_i hfull
      refine ⟨hp, hc, lt_of_le_of_ne hcw hfull, hc, ?_, ?_⟩
      · simp [Timer.configured, Timer.dropSlots, compareA, hfull]
      · simp [Timer.configured, Timer.dropSlots, compareB, hfull]

/-- The enable bits after a registration (41_timer.md R150). -/
theorem Timer.register_ie (tm : Timer) (slot k : Fin 3) (hid : BitVec 8) :
    (tm.register slot hid).ie.getLsbD k.val = (tm.ie.getLsbD k.val || decide (slot = k)) := by
  rw [Timer.register, BitVec.getLsbD_or, BitVec.getLsbD_twoPow, decide_eq_true slot.isLt, Bool.true_and]
  simp [Fin.ext_iff]

theorem Timer.register_handler (tm : Timer) (slot k : Fin 3) (hid : BitVec 8) :
    (tm.register slot hid).handler[k.val] = if slot = k then some hid else tm.handler[k.val] := by
  simp [Timer.register, Vector.getElem_set, Fin.ext_iff]

theorem Timer.Inv.register {width : Nat} {ps : List Nat} {tm : Timer} (h : tm.Inv width ps) {slot : Fin 3}
    (hslot : slot.val < tm.nslots) (hid : BitVec 8) : (tm.register slot hid).Inv width ps := by
  obtain ⟨henabled, hbelow, hmodes⟩ := h
  refine ⟨fun k => ?_, fun k hk => ?_, hmodes⟩
  · rw [Timer.register_ie, Timer.register_handler, henabled k]
    split <;> simp [*]
  · have hne : slot ≠ k := by rintro rfl; exact absurd hslot (Nat.not_lt.2 hk)
    rw [Timer.register_ie, hbelow k hk, decide_eq_false hne, Bool.or_false]

/-- The counter may move within the range of its mode (41_timer.md R158, R159). -/
theorem Timer.Inv.withCount {width : Nat} {ps : List Nat} {tm : Timer} (h : tm.Inv width ps) {c : Nat}
    (hoff : tm.mode = .off → c = 0) (hnormal : tm.mode = .normal → c < 2 ^ width)
    (hctc : tm.mode = .ctc → c < tm.top) : Timer.Inv width ps { tm with tcnt := c } := by
  obtain ⟨henabled, hbelow, offRegs, normalRegs, ctcRegs⟩ := h
  refine ⟨henabled, hbelow, fun hm => ?_, fun hm => ?_, fun hm => ?_⟩
  · obtain ⟨hpresc, htop, -, hcompare⟩ := offRegs hm
    exact ⟨hpresc, htop, hoff hm, hcompare⟩
  · obtain ⟨hpresc, htop, -, hcompare⟩ := normalRegs hm
    exact ⟨hpresc, htop, hnormal hm, hcompare⟩
  · obtain ⟨hpresc, htop, hlt, -, hcompare⟩ := ctcRegs hm
    exact ⟨hpresc, htop, hlt, hctc hm, hcompare⟩

theorem Timer.Inv.zeroed {width : Nat} {ps : List Nat} {tm : Timer} (h : tm.Inv width ps) :
    Timer.Inv width ps { tm with tcnt := 0 } := by
  refine h.withCount (fun _ => rfl) (fun _ => Nat.two_pow_pos width) (fun hm => ?_)
  obtain ⟨-, -, -, -, ctcRegs⟩ := h
  obtain ⟨-, htop, -⟩ := ctcRegs hm
  exact htop

/-- A tick keeps the counter below its period (41_timer.md R158, R159). -/
theorem Timer.Inv.counted {width : Nat} {ps : List Nat} {tm : Timer} (h : tm.Inv width ps) :
    Timer.Inv width ps { tm with tcnt := tm.nextCount width } := by
  have hinv := h
  obtain ⟨-, -, offRegs, normalRegs, ctcRegs⟩ := h
  refine hinv.withCount (fun hm => ?_) (fun hm => ?_) (fun hm => ?_)
  · obtain ⟨-, -, hcount, -⟩ := offRegs hm
    simp only [Timer.nextCount, hm, hcount]
  · obtain ⟨-, -, hcount, -⟩ := normalRegs hm
    simp only [Timer.nextCount, hm]
    split <;> omega
  · obtain ⟨-, htop, -, hcount, hocra, -⟩ := ctcRegs hm
    simp only [Timer.nextCount, hm, hocra]
    split
    · exact htop
    · split <;> omega

/-- The invariant of the counter timers. -/
def State.TimersInv (s : State) : Prop :=
  ∀ t : Fin 2, s.tmr[t.val].Inv s.params.timerWidth[t.val] s.params.prescalers[t.val]

theorem State.TimersInv.of_eq {s t : State} (h : s.TimersInv) (htmr : t.tmr = s.tmr) (hparams : t.params = s.params) :
    t.TimersInv := by
  unfold State.TimersInv
  rw [htmr, hparams]
  exact h

theorem State.TimersInv.setTimer {s : State} (h : s.TimersInv) {t : Fin 2} {tm : Timer}
    (htm : tm.Inv s.params.timerWidth[t.val] s.params.prescalers[t.val]) : (s.setTimer t tm).TimersInv :=
  forall_getElem_set (P := fun j (tm : Timer) => tm.Inv s.params.timerWidth[j.val] s.params.prescalers[j.val]) h htm

theorem State.timersInv_resetFields (s : State) (comb : Vector (BitVec 4) 3) : (s.resetFields comb).TimersInv :=
  Fin.forall_fin_two.2 ⟨Timer.inv_initial _ _, Timer.inv_initial _ _⟩

theorem effect_params (i : Instr) (s : State) : (effect i s).params = s.params := (effect_appends i s).params

theorem effect_timersInv {s : State} (h : s.TimersInv) (i : Instr) : (effect i s).TimersInv := by
  cases i with
  | tmrConfig tid period =>
    rcases tmrConfigRun_cases tid period s with e | ⟨t, c, v, hc, e⟩ <;> rw [effect, e]
    · exact h
    · obtain ⟨hp, hc1, hcw⟩ := searchBest_mem hc
      exact h.setTimer ((h t).configured hp hc1 hcw)
  | tmrRegisr tid slot hid =>
    rcases tmrRegisrRun_cases tid slot hid s with e | ⟨t, k, hk, e⟩ <;> rw [effect, e]
    · exact h
    · exact h.setTimer ((h t).register hk hid)
  | tmrReset tid =>
    rcases tmrResetRun_cases tid s with e | ⟨t, e⟩ <;> rw [effect, e]
    · exact h
    · exact h.setTimer (h t).zeroed
  | evTmrtick tid =>
    rcases evTmrtickRun_cases tid s with ⟨-, e⟩ | ⟨t, -, hframe⟩
    · rw [effect, e]; exact h
    · exact (h.setTimer (h t).counted).of_eq hframe.tmr hframe.params
  | evPorst => exact s.timersInv_resetFields (drawnComb s.powerOns)
  | evSoftrst => exact s.timersInv_resetFields _
  | _ => exact h.of_eq (effect_writesOnly _ s .timers (by simp [writes])) (effect_params _ s)

/-! ## The invariant of the tickers -/

theorem Ticker.inv_initial : Ticker.initial.Inv := ⟨nofun, fun _ => ⟨rfl, rfl, rfl⟩⟩

/-- A ticker just attached (41_timer.md R153). -/
theorem Ticker.inv_attached {period : BitVec 32} (hperiod : 1 ≤ period.toNat) (hid : BitVec 8) :
    Ticker.Inv { attached := true, period := period, handler := hid, elapsed := 0#32 } :=
  ⟨fun _ => ⟨hperiod, hperiod⟩, nofun⟩

theorem Ticker.Inv.withElapsed {k : Ticker} (h : k.Inv) (ha : k.attached = true) {n : BitVec 32}
    (hn : n.toNat < k.period.toNat) : Ticker.Inv { k with elapsed := n } := by
  obtain ⟨hattached, -⟩ := h
  obtain ⟨hperiod, -⟩ := hattached ha
  exact ⟨fun _ => ⟨hperiod, hn⟩, fun hdetached => absurd (ha.symm.trans hdetached) nofun⟩

theorem Ticker.Inv.period_pos {k : Ticker} (h : k.Inv) (ha : k.attached = true) : 0 < k.period.toNat := by
  obtain ⟨hattached, -⟩ := h
  exact (hattached ha).1

theorem Ticker.Inv.restarted {k : Ticker} (h : k.Inv) : k.restarted.Inv := by
  unfold Ticker.restarted
  split
  · rename_i ha; exact h.withElapsed ha (h.period_pos ha)
  · exact h

/-- A microsecond keeps the phase below the period (41_timer.md R163). -/
theorem Ticker.Inv.ticked {k : Ticker} (h : k.Inv) : k.ticked.Inv := by
  unfold Ticker.ticked
  split
  · rename_i ha
    split
    · exact h.withElapsed ha (h.period_pos ha)
    · rename_i hdue; exact h.withElapsed ha (Nat.not_le.1 hdue)
  · exact h

/-- The invariant of the tickers. -/
def State.TickersInv (s : State) : Prop := ∀ t : Fin 2, s.tk[t.val].Inv

theorem State.TickersInv.of_eq {s t : State} (h : s.TickersInv) (htk : t.tk = s.tk) : t.TickersInv := by
  unfold State.TickersInv
  rw [htk]
  exact h

theorem State.TickersInv.setTicker {s : State} (h : s.TickersInv) {t : Fin 2} {k : Ticker} (hk : k.Inv) :
    (s.setTicker t k).TickersInv :=
  forall_getElem_set (P := fun _ (k : Ticker) => k.Inv) h hk

theorem State.TickersInv.tickTicker {s : State} (h : s.TickersInv) (t : Fin 2) : (s.tickTicker t).TickersInv :=
  (h.setTicker (h t).ticked).of_eq (s.tickTicker_frame t).tk

theorem State.tickersInv_resetFields (s : State) (comb : Vector (BitVec 4) 3) : (s.resetFields comb).TickersInv :=
  Fin.forall_fin_two.2 ⟨Ticker.inv_initial, Ticker.inv_initial⟩

theorem State.TickersInv.microsecond {s : State} (h : s.TickersInv) : s.microsecond.TickersInv :=
  have hcount : State.TickersInv { s with usCounter := s.usCounter + 1#32 } := h
  (hcount.tickTicker 0).tickTicker 1

theorem effect_tickersInv {s : State} (h : s.TickersInv) (i : Instr) : (effect i s).TickersInv := by
  cases i with
  | tmrRegper tid hid period =>
    rcases tmrRegperRun_cases tid hid period s with e | ⟨t, hperiod, e⟩ <;> rw [effect, e]
    · exact h
    · exact h.setTicker (Ticker.inv_attached hperiod hid)
  | tmrResetper tid =>
    rcases tmrResetperRun_cases tid s with e | ⟨t, e⟩ <;> rw [effect, e]
    · exact h
    · exact h.setTicker (h t).restarted
  | evUstick => exact h.microsecond.of_eq (s.microsecond.blinkAdvance_writesOnly .tickers (by simp))
  | evPorst => exact s.tickersInv_resetFields (drawnComb s.powerOns)
  | evSoftrst => exact s.tickersInv_resetFields _
  | _ => exact h.of_eq (effect_writesOnly _ s .tickers (by simp [writes]))

/-! ## The servo register -/

theorem Pwm.iterate_tick_pulseWidth (p : Params) (w : Pwm) (n : Nat) :
    ((Pwm.tick p)^[n] w).pulseWidth = w.pulseWidth :=
  Function.Iterate.rec (fun v : Pwm => v.pulseWidth = w.pulseWidth) rfl
    (fun v hv => (Pwm.tick_pulseWidth p v).trans hv) n

theorem effect_legalWidth {s : State} (h : LegalWidth s.pwm.pulseWidth) (i : Instr) :
    LegalWidth (effect i s).pwm.pulseWidth := by
  rcases effect_pwm_cases i s with ⟨n, e⟩ | ⟨pos, e⟩ | e <;> rw [e]
  · rwa [Pwm.iterate_tick_pulseWidth]
  · exact legalWidth_positionWidth _ _
  · exact legalWidth_positionWidth _ _

/-! ## The invariant of the lock group -/

theorem noStaging_le : ∀ k : Fin 6, (#v[0#7, 0#7, 0#7, 0#7, 0#7, 0#7] : Vector (BitVec 7) 6)[k.val].toNat ≤ 99 := by
  decide

theorem Lock.inv_initial (comb : Vector (BitVec 4) 3) : (Lock.initial comb).Inv :=
  ⟨rfl, by simp [Lock.initial], noStaging_le, nofun⟩

theorem Lock.Inv.clearProgress {l : Lock} (h : l.Inv) : l.clearProgress.Inv := by
  obtain ⟨-, hrest⟩ := h
  exact ⟨rfl, hrest⟩

theorem Lock.Inv.clearStaging {l : Lock} (h : l.Inv) : l.clearStaging.Inv := by
  obtain ⟨hexpected, halarm, -, -⟩ := h
  exact ⟨hexpected, halarm, noStaging_le, nofun⟩

/-- A new lock state and a new count of bad tries that belong together (43_lock_fsm.md R223). -/
theorem Lock.Inv.withState {l : Lock} (h : l.Inv) {st : LockState} {n : BitVec 2} (hst : st = .alarmed ↔ n = 3#2) :
    Lock.Inv { l with lkState := st, badTries := n } := by
  obtain ⟨hexpected, -, hstaging⟩ := h
  exact ⟨hexpected, hst, hstaging⟩

/-- Outside ALARMED there are fewer than three bad tries, so a move to a state other than ALARMED is free. -/
theorem Lock.Inv.calm {l : Lock} (h : l.Inv) (hl : l.lkState ≠ .alarmed) {st : LockState} (hst : st ≠ .alarmed) :
    st = .alarmed ↔ l.badTries = 3#2 := by
  obtain ⟨-, halarm, -⟩ := h
  exact iff_of_false hst fun hbad => hl (halarm.2 hbad)

/-- The turn direction alternates with the stage (43_lock_fsm.md R214). -/
theorem Lock.Inv.advanceStage {l : Lock} (h : l.Inv) (hs : l.stage.val < 2) : (l.advanceStage hs).Inv := by
  obtain ⟨hexpected, hrest⟩ := h
  refine ⟨?_, hrest⟩
  simp only [Lock.advanceStage, hexpected]
  obtain h0 | h1 : l.stage = 0 ∨ l.stage = 1 := by omega
  · simp [h0, opposite]
  · simp [h1, opposite]

theorem Lock.Inv.takeEdge {l : Lock} (h : l.Inv) (e : Dir) : (l.takeEdge e).Inv := by
  rcases l.takeEdge_cases e with ⟨-, heq⟩ | ⟨-, -, heq⟩ | ⟨-, -, hs, heq⟩ | ⟨-, -, -, heq⟩ <;> rw [heq]
  · exact h
  · exact h
  · exact h.advanceStage hs
  · exact h.clearProgress

/-- Two decimal digits make a staged value of at most 99 (10_state.md R61, 43_lock_fsm.md R232). -/
theorem Lock.Inv.keyStroke {l : Lock} (h : l.Inv) (k : BitVec 4) : (l.keyStroke k).Inv := by
  have hinv := h
  obtain ⟨hexpected, halarm, hslots, htens⟩ := h
  rcases l.keyStroke_cases k with e | ⟨hk, e⟩ | ⟨tens, hidx, hk, hbuffered, e⟩ <;> rw [e]
  · exact hinv
  · exact ⟨hexpected, halarm, hslots, fun d hd => by rwa [← Option.some.inj hd]⟩
  · have htens9 : tens.toNat ≤ 9 := htens tens hbuffered
    refine ⟨hexpected, halarm, fun j => ?_, nofun⟩
    dsimp only
    rw [Vector.getElem_set]
    split
    · rw [BitVec.toNat_ofNat, Nat.mod_eq_of_lt] <;> omega
    · exact hslots j

theorem Lock.Inv.commit {l : Lock} (h : l.Inv) (hl : l.lkState = .changing) : l.commit.Inv := by
  rw [Lock.commit_eq]
  exact h.clearStaging.withState (h.calm (by simp [hl]) nofun)

theorem Lock.Inv.changingStep {l : Lock} (h : l.Inv) (hl : l.lkState = .changing) (sw : Bool)
    (rel : Option (BitVec 4)) : (l.changingStep sw rel).Inv := by
  rcases l.changingStep_cases sw rel with ⟨-, e⟩ | e | ⟨k, e⟩ <;> rw [e]
  · exact h.commit hl
  · exact h
  · exact h.keyStroke k

theorem State.evaluate_lockInv {s : State} (h : s.lock.Inv) (hl : s.lock.lkState = .locked) :
    s.evaluate.lock.Inv := by
  have hcalm : s.lock.lkState ≠ .alarmed := by simp [hl]
  rcases s.evaluate_cases with ⟨-, e⟩ | ⟨-, -, e⟩ | ⟨-, hbad, e⟩ <;> rw [e]
  · exact h.withState (h.calm hcalm nofun)
  · exact h.withState (iff_of_true rfl rfl)
  · have hnext : s.lock.badTries + 1#2 ≠ 3#2 := by bv_omega
    exact h.clearProgress.withState (iff_of_false hcalm hnext)

theorem State.lockedStep_lockInv {s : State} (h : s.lock.Inv) (hl : s.lock.lkState = .locked) (e : Dir) (pl : Bool) :
    (s.lockedStep e pl).lock.Inv := by
  rcases s.lockedStep_cases e pl with heq | heq <;> rw [heq]
  · exact h.takeEdge e
  · exact State.evaluate_lockInv (h.takeEdge e) ((s.lock.takeEdge_lkState e).trans hl)

theorem State.unlockedStep_lockInv {s : State} (h : s.lock.Inv) (hl : s.lock.lkState = .unlocked)
    (pboth pr sw : Bool) : (s.unlockedStep pboth pr sw).lock.Inv := by
  have hcalm : s.lock.lkState ≠ .alarmed := by simp [hl]
  rcases s.unlockedStep_cases pboth pr sw with e | e | e <;> rw [e]
  · exact h.clearProgress.withState (iff_of_false nofun nofun)
  · exact h.clearStaging.withState (h.calm hcalm nofun)
  · exact h

theorem State.lockProcedure_lockInv {s : State} (h : s.lock.Inv) (pl pr pboth sw : Bool) (rel : Option (BitVec 4)) :
    (s.lockProcedure pl pr pboth sw rel).lock.Inv := by
  unfold State.lockProcedure
  split
  · exact h
  · rename_i hlocked; exact State.lockedStep_lockInv (s := s.clearEdge) h hlocked _ _
  · rename_i hunlocked; exact State.unlockedStep_lockInv (s := s.clearEdge) h hunlocked _ _ _
  · rename_i hchanging; exact h.changingStep hchanging _ _

theorem lockCtrlRun_lockInv {s : State} (h : s.lock.Inv) (bl br sw : Bool) (key : Option (BitVec 4)) :
    (lockCtrlRun bl br sw key s).lock.Inv := by
  unfold lockCtrlRun
  dsimp only
  rw [State.respond_lock, State.finishInvocation_lock]
  exact State.lockProcedure_lockInv (s := s.setLock (s.lock.latch bl br key)) h _ _ _ _ _

/-- The combination is outside the invariant of the lock group. -/
theorem Lock.Inv.of_same {s t : State} (h : s.lock.Inv) (hsame : Group.Same s t .lock) : t.lock.Inv := by
  have hlock : t.lock = { s.lock with comb := t.lock.comb } := hsame
  rw [hlock]
  exact h

theorem effect_lockInv {s : State} (h : s.lock.Inv) (i : Instr) : (effect i s).lock.Inv := by
  cases i with
  | lockCtrl bl br sw kv key => exact lockCtrlRun_lockInv h bl br sw (keyOperand kv key)
  | evPorst => exact Lock.inv_initial _
  | evSoftrst => exact Lock.inv_initial _
  | _ => exact h.of_same (effect_writesOnly _ s .lock (by simp [writes]))

/-! ## The invariant of the blink -/

theorem State.BlinkInv.of_same {s t : State} (h : s.BlinkInv) (hblink : Group.Same s t .blink)
    (hlock : Group.Same s t .lock) : t.BlinkInv := by
  have hblink' : t.blink = s.blink := hblink
  have hlock' : t.lock = { s.lock with comb := t.lock.comb } := hlock
  unfold State.BlinkInv
  rw [hblink', hlock']
  exact h

theorem State.busy_eq_false_iff {s : State} : s.busy = false ↔ s.blink.phases = 0#3 := by
  simp [State.busy]

/-- With no blink running, the lock state is free. -/
theorem State.BlinkInv.of_idle {s t : State} (h : s.BlinkInv) (hb : s.busy = false) (hblink : t.blink = s.blink) :
    t.BlinkInv := by
  obtain ⟨hphases, hled, hpending, -⟩ := h
  unfold State.BlinkInv
  rw [hblink]
  exact ⟨hphases, hled, hpending, fun hne => absurd (State.busy_eq_false_iff.1 hb) hne⟩

theorem State.blinkInv_initial {s : State} (h : s.blink = Blink.initial) : s.BlinkInv := by
  unfold State.BlinkInv
  rw [h]
  simp [Blink.initial]

/-- `t` has the blink of `s`, or a blink of two or four phases begun in `s` and a lock state that allows it
(43_lock_fsm.md R237, R238). -/
def State.MayBlink (s t : State) : Prop :=
  t.blink = s.blink ∨ ∃ n, (n = 2#3 ∨ n = 4#3) ∧
    t.blink = { s.blink with phases := n, start := s.usCounter, led := true } ∧
    (t.lock.lkState = .locked ∨ t.lock.lkState = .alarmed)

theorem State.evaluate_mayBlink {s : State} (hl : s.lock.lkState = .locked) : s.MayBlink s.evaluate := by
  rcases s.evaluate_cases with ⟨-, e⟩ | ⟨-, -, e⟩ | ⟨-, -, e⟩ <;> rw [e]
  · exact .inl rfl
  · exact .inl rfl
  · exact .inr ⟨4#3, .inr rfl, rfl, .inl hl⟩

theorem State.lockProcedure_mayBlink (s : State) (pl pr pboth sw : Bool) (rel : Option (BitVec 4)) :
    s.MayBlink (s.lockProcedure pl pr pboth sw rel) := by
  unfold State.lockProcedure
  split
  · rename_i halarmed; exact .inr ⟨2#3, .inl rfl, rfl, .inr halarmed⟩
  · rename_i hlocked
    rcases s.clearEdge.lockedStep_cases s.qd.dir pl with e | e <;> rw [e]
    · exact .inl rfl
    · exact State.evaluate_mayBlink (s := s.clearEdge.setLock (s.lock.takeEdge s.qd.dir))
        ((s.lock.takeEdge_lkState _).trans hlocked)
  · rcases s.clearEdge.unlockedStep_cases pboth pr sw with e | e | e <;> rw [e] <;> exact .inl rfl
  · exact .inl rfl

/-- The invocation that begins a blink leaves its display record pending; every other leaves no blink (43_lock_fsm.md
R200, R236). -/
theorem State.BlinkInv.finishInvocation {s t : State} (h : s.BlinkInv) (hb : s.busy = false) (ht : s.MayBlink t) :
    t.finishInvocation.BlinkInv := by
  rcases ht with hblink | ⟨n, hn, hblink, hlock⟩
  · have hidle : t.busy = false := (State.busy_of_blink_eq hblink).trans hb
    rcases t.finishInvocation_cases with ⟨hbusy, -⟩ | ⟨-, e⟩
    · exact absurd (hidle.symm.trans hbusy) nofun
    · rw [e]
      exact h.of_idle hb hblink
  · have hphases : t.blink.phases = n := by rw [hblink]
    have hled : t.blink.led = true := by rw [hblink]
    rcases t.finishInvocation_cases with ⟨-, e⟩ | ⟨hidle, -⟩
    · rw [e]
      refine ⟨?_, ?_, ?_, fun _ => hlock⟩ <;> rcases hn with rfl | rfl <;> simp [hphases, hled]
    · rw [State.busy_eq_false_iff, hphases] at hidle
      rcases hn with rfl | rfl <;> contradiction

/-- The phase after one that is not the last (43_lock_fsm.md R239). -/
theorem nextPhase_facts : ∀ n : BitVec 3, n.toNat ≤ 4 → n ≠ 0#3 → n ≠ 1#3 →
    (n - 1#3).toNat ≤ 4 ∧ n - 1#3 ≠ 0#3 ∧
      (((n - 1#3).toNat % 2 == 0) = true ↔ n - 1#3 = 2#3 ∨ n - 1#3 = 4#3) := by
  decide

theorem State.BlinkInv.blinkAdvance {s : State} (h : s.BlinkInv) : s.blinkAdvance.BlinkInv := by
  rcases s.blinkAdvance_cases with e | ⟨h0, h1, e⟩ | ⟨-, e⟩ <;> rw [e]
  · exact h
  · obtain ⟨hphases, -, hpending, hlock⟩ := h
    obtain ⟨hphases', hne, hled⟩ := nextPhase_facts _ hphases h0 h1
    exact ⟨hphases', hled, iff_of_true (hpending.2 h0) hne, fun _ => hlock h0⟩
  · simp [State.BlinkInv]

/-- Host commands are held while a blink runs, so that its lock state stays (60_exceptions.md R270). -/
theorem effect_blinkInv {s : State} (h : s.BlinkInv) {i : Instr}
    (hfree : channelOf (opcode i) = .event ∨ s.busy = false) : (effect i s).BlinkInv := by
  cases i with
  | lockCtrl bl br sw kv key =>
    have hb : s.busy = false := hfree.resolve_left nofun
    have hlatched : (s.setLock (s.lock.latch bl br (keyOperand kv key))).BlinkInv := h
    exact hlatched.finishInvocation hb (State.lockProcedure_mayBlink _ _ _ _ _ _)
  | evUstick =>
    have hticked : s.microsecond.BlinkInv :=
      h.of_same (s.microsecond_writesOnly .blink (by simp)) (s.microsecond_writesOnly .lock (by simp))
    exact hticked.blinkAdvance
  | evPorst => exact State.blinkInv_initial rfl
  | evSoftrst => exact State.blinkInv_initial rfl
  | _ =>
    exact h.of_same (effect_writesOnly _ s .blink (by simp [writes])) (effect_writesOnly _ s .lock (by simp [writes]))

/-! ## The invariant of the machine -/

theorem effect_inv {s : State} (h : s.Inv) {i : Instr} (hfree : channelOf (opcode i) = .event ∨ s.busy = false) :
    (effect i s).Inv := by
  obtain ⟨htimers, htickers, hwidth, hlock, hblink⟩ := h
  exact ⟨effect_timersInv htimers i, effect_tickersInv htickers i, effect_legalWidth hwidth i, effect_lockInv hlock i,
    effect_blinkInv hblink hfree⟩

/-- The invariant says nothing of the turns and channels. -/
theorem State.Takes.inv {s u : State} (h : s.Takes u) (hs : s.Inv) : u.Inv := by
  obtain ⟨a, b, rfl⟩ := h
  exact hs

/-- Settles O14: the turn, the words and an ILLEGAL answer are outside the invariant, and every effect keeps it. -/
theorem everyStepKeepsTheInvariant : Obligations.EveryStepKeepsTheInvariant := by
  intro s t hs h
  obtain ⟨u, htakes, rfl | rfl | ⟨i, hfree, rfl⟩⟩ := step_takes h
  · exact htakes.inv hs
  · exact htakes.inv hs
  · exact effect_inv (htakes.inv hs) hfree

end Sys2Proof.Machine
end

section
/-! PROOFS of the family 20_memory: encode and decode agree over words and over bytes; the steps that find no command. -/

namespace Sys2Proof

/-! ## The fields of a first word (30_encoding.md R94 to R100) -/

theorem tidField_firstWord (opc : BitVec 8) (f : BitVec 24) : tidField (firstWord opc f) = f.extractLsb' 16 8 :=
  extractLsb'_firstWord opc f 16 8 (by decide)

theorem slotField_firstWord (opc : BitVec 8) (f : BitVec 24) : slotField (firstWord opc f) = f.extractLsb' 12 4 :=
  extractLsb'_firstWord opc f 12 4 (by decide)

theorem hidField_firstWord (opc : BitVec 8) (f : BitVec 24) : hidField (firstWord opc f) = f.extractLsb' 0 8 :=
  extractLsb'_firstWord opc f 0 8 (by decide)

theorem keyField_firstWord (opc : BitVec 8) (f : BitVec 24) : keyField (firstWord opc f) = f.extractLsb' 0 4 :=
  extractLsb'_firstWord opc f 0 4 (by decide)

theorem codeField_firstWord (opc : BitVec 8) (f : BitVec 24) : codeField (firstWord opc f) = f.extractLsb' 0 2 :=
  extractLsb'_firstWord opc f 0 2 (by decide)

/-- Format TP has its TID where format T has it. -/
theorem tidField_format_t (opc tid : BitVec 8) : tidField (firstWord opc (tid ++ 0#16)) = tid := by
  rw [tidField_firstWord, BitVec.extractLsb'_append_eq_left]

theorem fields_format_tsh (opc tid : BitVec 8) (slot : BitVec 4) (hid : BitVec 8) :
    let w := firstWord opc (tid ++ slot ++ 0#4 ++ hid)
    tidField w = tid ∧ slotField w = slot ∧ hidField w = hid := by
  refine ⟨?_, ?_, ?_⟩
  · rw [tidField_firstWord, BitVec.extractLsb'_append_eq_of_le (by decide),
      BitVec.extractLsb'_append_eq_of_le (by decide), BitVec.extractLsb'_append_eq_left]
  · rw [slotField_firstWord, BitVec.extractLsb'_append_eq_of_le (by decide),
      BitVec.extractLsb'_append_eq_of_le (by decide), BitVec.extractLsb'_append_eq_right]
  · rw [hidField_firstWord, BitVec.extractLsb'_append_eq_right]

theorem fields_format_thp (opc tid hid : BitVec 8) :
    let w := firstWord opc (tid ++ 0#8 ++ hid)
    tidField w = tid ∧ hidField w = hid := by
  refine ⟨?_, ?_⟩
  · rw [tidField_firstWord, BitVec.extractLsb'_append_eq_of_le (by decide), BitVec.extractLsb'_append_eq_left]
  · rw [hidField_firstWord, BitVec.extractLsb'_append_eq_right]

theorem fields_format_lk (opc : BitVec 8) (bl br sw kv : Bool) (key : BitVec 4) :
    let w := firstWord opc
      (0#16 ++ BitVec.ofBool bl ++ BitVec.ofBool br ++ BitVec.ofBool sw ++ BitVec.ofBool kv ++ key)
    blField w = bl ∧ brField w = br ∧ swField w = sw ∧ kvField w = kv ∧ keyField w = key := by
  refine ⟨?_, ?_, ?_, ?_, ?_⟩
  · rw [blField, getLsbD_firstWord]; repeat rw [BitVec.getLsbD_append]
    simp
  · rw [brField, getLsbD_firstWord]; repeat rw [BitVec.getLsbD_append]
    simp
  · rw [swField, getLsbD_firstWord]; repeat rw [BitVec.getLsbD_append]
    simp
  · rw [kvField, getLsbD_firstWord]; repeat rw [BitVec.getLsbD_append]
    simp
  · rw [keyField_firstWord, BitVec.extractLsb'_append_eq_right]

theorem codeField_format_qe (opc : BitVec 8) (code : BitVec 2) : codeField (firstWord opc (0#22 ++ code)) = code := by
  rw [codeField_firstWord, BitVec.extractLsb'_append_eq_right]

/-! ## The reserved bits of a first word -/

/-- The reserved bits of a format, as operand bits. -/
def reservedBits (fmt : Format) : BitVec 24 := (reservedMask fmt).extractLsb' 0 24

/-- No reserved bit of a format lies in the opcode. -/
theorem reservedMask_eq_append (fmt : Format) : reservedMask fmt = 0#8 ++ reservedBits fmt := by
  cases fmt <;> decide

theorem firstWord_and_reservedMask (opc : BitVec 8) (f : BitVec 24) (fmt : Format) :
    firstWord opc f &&& reservedMask fmt = 0#8 ++ (f &&& reservedBits fmt) := by
  rw [firstWord, reservedMask_eq_append, BitVec.and_append, BitVec.and_zero]

/-- Field by field: two words share no bit when their high parts and their low parts share none. -/
theorem append_and_append_eq_zero {m n : Nat} {x a : BitVec m} {y b : BitVec n} (hhigh : x &&& a = 0#m)
    (hlow : y &&& b = 0#n) : (x ++ y) &&& (a ++ b) = 0#(m + n) := by
  rw [BitVec.and_append, hhigh, hlow, BitVec.zero_append_zero]

/-! The operand bits that `encode` builds for a format set none of its reserved bits. -/

/-- Format TP has the operand bits and the reserved bits of format T. -/
theorem unreserved_t (tid : BitVec 8) : (tid ++ 0#16) &&& reservedBits .t = 0#24 := by
  have hbits : reservedBits .t = 0#8 ++ 0xFFFF#16 := by decide
  rw [hbits]
  exact append_and_append_eq_zero BitVec.and_zero BitVec.zero_and

theorem unreserved_tsh (tid : BitVec 8) (slot : BitVec 4) (hid : BitVec 8) :
    (tid ++ slot ++ 0#4 ++ hid) &&& reservedBits .tsh = 0#24 := by
  have hbits : reservedBits .tsh = 0#12 ++ 0xF#4 ++ 0#8 := by decide
  rw [hbits]
  exact append_and_append_eq_zero (append_and_append_eq_zero BitVec.and_zero BitVec.zero_and) BitVec.and_zero

theorem unreserved_thp (tid hid : BitVec 8) : (tid ++ 0#8 ++ hid) &&& reservedBits .thp = 0#24 := by
  have hbits : reservedBits .thp = 0#8 ++ 0xFF#8 ++ 0#8 := by decide
  rw [hbits]
  exact append_and_append_eq_zero (append_and_append_eq_zero BitVec.and_zero BitVec.zero_and) BitVec.and_zero

theorem unreserved_lk (bl br sw kv : Bool) (key : BitVec 4) :
    (0#16 ++ BitVec.ofBool bl ++ BitVec.ofBool br ++ BitVec.ofBool sw ++ BitVec.ofBool kv ++ key) &&&
      reservedBits .lk = 0#24 := by
  have hbits : reservedBits .lk = 0xFFFF#16 ++ 0#1 ++ 0#1 ++ 0#1 ++ 0#1 ++ 0#4 := by decide
  rw [hbits]
  iterate 5 refine append_and_append_eq_zero ?_ BitVec.and_zero
  exact BitVec.zero_and

theorem unreserved_qe (code : BitVec 2) : (0#22 ++ code) &&& reservedBits .qe = 0#24 := by
  have hbits : reservedBits .qe = 0x3FFFFF#22 ++ 0#2 := by decide
  rw [hbits]
  exact append_and_append_eq_zero BitVec.zero_and BitVec.and_zero

/-! ## Words -/

/-- A first word with an assigned opcode, its operand word there, and nothing of 30_encoding.md R103 wrong with it decodes
to the operation of its row. -/
theorem decode_firstWord {opc : BitVec 8} {fmt : Format} {build : Word → Word → Instr} {f : BitVec 24} {w1 : Word}
    {rest : List Word} (hrow : opcodeRow opc = some (fmt, build)) (hoperand : operandWord fmt rest = some w1)
    (hreserved : f &&& reservedBits fmt = 0#24)
    (hkey : fmt = .lk → keyLegal (kvField (firstWord opc f)) (keyField (firstWord opc f)) = true) :
    decode (firstWord opc f :: rest) = .op (build (firstWord opc f) w1) (formatWords fmt) := by
  have hmasked : firstWord opc f &&& reservedMask fmt = 0#32 := by
    rw [firstWord_and_reservedMask, hreserved, BitVec.zero_append_zero]
  have hlegal : ¬ (fmt = .lk ∧ keyLegal (kvField (firstWord opc f)) (keyField (firstWord opc f)) = false) :=
    fun ⟨hlk, hbad⟩ => by simp [hkey hlk] at hbad
  simp [decode, hrow, hoperand, hmasked, hlegal]

theorem decode_format_n {opc : BitVec 8} {i : Instr} (hrow : opcodeRow opc = some (.n, fun _ _ => i))
    (rest : List Word) : decode (firstWord opc 0#24 :: rest) = .op i 1 :=
  decode_firstWord hrow rfl (BitVec.zero_and ..) nofun

theorem decode_format_t {opc : BitVec 8} {build : BitVec 8 → Instr}
    (hrow : opcodeRow opc = some (.t, fun w0 _ => build (tidField w0))) (tid : BitVec 8) (rest : List Word) :
    decode (firstWord opc (tid ++ 0#16) :: rest) = .op (build tid) 1 := by
  have h := decode_firstWord (rest := rest) hrow rfl (unreserved_t tid) nofun
  rwa [tidField_format_t] at h

/-- The decoder reads a well-formed instruction back from its encoding, whatever words follow: format by format, its row,
its operand word, its reserved bits and its fields. -/
theorem decode_encode_append {i : Instr} (hwf : i.wellFormed = true) (rest : List Word) :
    decode (encode i ++ rest) = .op i (encode i).length := by
  cases i with
  | qdSample | qdGetdir | srvCenter | srvCw | srvCcw | lockRstcomb | lockCheck | evUstick | evPorst | evSoftrst =>
    exact decode_format_n rfl rest
  | tmrReset tid | tmrResetper tid | evTmrtick tid => exact decode_format_t rfl tid rest
  | tmrConfig tid period =>
    have h := decode_firstWord (opc := 0x10#8) (rest := period :: rest) rfl rfl (unreserved_t tid) nofun
    rwa [tidField_format_t] at h
  | tmrRegisr tid slot hid =>
    have h := decode_firstWord (opc := 0x11#8) (rest := rest) rfl rfl (unreserved_tsh tid slot hid) nofun
    obtain ⟨htid, hslot, hhid⟩ := fields_format_tsh 0x11#8 tid slot hid
    rwa [htid, hslot, hhid] at h
  | tmrRegper tid hid period =>
    have h := decode_firstWord (opc := 0x13#8) (rest := period :: rest) rfl rfl (unreserved_thp tid hid) nofun
    obtain ⟨htid, hhid⟩ := fields_format_thp 0x13#8 tid hid
    rwa [htid, hhid] at h
  | lockCtrl bl br sw kv key =>
    obtain ⟨hbl, hbr, hsw, hkv, hkey⟩ := fields_format_lk 0x30#8 bl br sw kv key
    have h := decode_firstWord (opc := 0x30#8) (rest := rest) rfl rfl (unreserved_lk bl br sw kv key)
      (fun _ => by rw [hkv, hkey]; exact hwf)
    rwa [hbl, hbr, hsw, hkv, hkey] at h
  | evQdedge code =>
    have h := decode_firstWord (opc := 0x80#8) (rest := rest) rfl rfl (unreserved_qe code) nofun
    rwa [codeField_format_qe] at h

/-! ## Bytes (20_memory.md R73) -/

/-- The four bytes of a word, put together again. -/
theorem wordOfBytes_extractLsb' (w : Word) :
    wordOfBytes (w.extractLsb' 0 8) (w.extractLsb' 8 8) (w.extractLsb' 16 8) (w.extractLsb' 24 8) = w := by
  rw [wordOfBytes, BitVec.extractLsb'_append_extractLsb'_eq_extractLsb' (by rfl),
    BitVec.extractLsb'_append_extractLsb'_eq_extractLsb' (by rfl),
    BitVec.extractLsb'_append_extractLsb'_eq_extractLsb' (by rfl), BitVec.extractLsb'_eq_self]

@[simp] theorem wordsOfBytes_bytesOfWord_append (w : Word) (bs : List Byte) :
    wordsOfBytes (bytesOfWord w ++ bs) = w :: wordsOfBytes bs :=
  congrArg (· :: wordsOfBytes bs) (wordOfBytes_extractLsb' w)

/-- A byte transport delivers the words that were sent, ahead of whatever follows. -/
theorem wordsOfBytes_flatMap_append (ws : List Word) (bs : List Byte) :
    wordsOfBytes (ws.flatMap bytesOfWord ++ bs) = ws ++ wordsOfBytes bs := by
  induction ws with
  | nil => rfl
  | cons w ws ih => rw [List.flatMap_cons, List.append_assoc, wordsOfBytes_bytesOfWord_append, ih, List.cons_append]

/-- Settles O3: the bytes of an encoding arrive as its words, and those decode to the instruction. -/
theorem byteTransportRoundTrip : Obligations.ByteTransportRoundTrip := by
  refine ⟨fun i rest hwf => ?_, fun _ => rfl, wordsOfBytes_bytesOfWord_append⟩
  rw [decodeBytes, encodeBytes, wordsOfBytes_flatMap_append]
  exact decode_encode_append hwf (wordsOfBytes rest)

end Sys2Proof

namespace Sys2Proof.Machine

/-! ## Steps that find no command (20_memory.md R74, R80) -/

theorem step_of_turns_nil {s : State} (hturns : s.turns = []) : step s = .next s := by
  simp only [step, State.fetch, hturns]

theorem step_of_incomplete {s : State} {ch : Channel} {rest : List Channel} (hturns : s.turns = ch :: rest)
    (hnone : decode (s.channel ch) = .incomplete) : step s = .next (s.afterTurn rest) := by
  simp only [step, State.fetch, hturns, State.serve, State.afterTurn_channel, hnone]

/-- Settles O9: with no turn there is nothing to serve, and serving an incomplete command leaves the state after the turn. -/
theorem stepIdlesWithoutCommand : Obligations.StepIdlesWithoutCommand := fun _ =>
  ⟨step_of_turns_nil, fun _ _ => step_of_incomplete⟩

end Sys2Proof.Machine
end

section
/-! PROOFS of the family 30_encoding: decoding and encoding are inverse, which words are illegal, what a step does with
the word at the head of its channel. -/

namespace Sys2Proof

/-- Settles O1, format by format: the round trip that the byte transport already rests on. -/
theorem decodeInvertsEncode : Obligations.DecodeInvertsEncode :=
  fun _ rest hwf => decode_encode_append hwf rest

/-! ## The reserved field of each format (30_encoding.md R94 to R100): one block of bits -/

/-- The lowest reserved bit of a format. -/
def Format.reservedLow : Format → Nat
  | .n | .t | .tp => 0
  | .tsh | .thp | .lk => 8
  | .qe => 2

/-- How many bits a format reserves. -/
def Format.reservedWidth : Format → Nat
  | .n => 24
  | .t | .tp | .lk => 16
  | .tsh => 4
  | .thp => 8
  | .qe => 22

theorem getLsbD_reservedMask (fmt : Format) (k : Fin 32) :
    (reservedMask fmt).getLsbD k = decide (fmt.reservedLow ≤ k ∧ k < fmt.reservedLow + fmt.reservedWidth) := by
  cases fmt <;> decide +revert

theorem Format.reservedLow_add_reservedWidth_le (fmt : Format) : fmt.reservedLow + fmt.reservedWidth ≤ 24 := by
  cases fmt <;> decide

/-- No bit under the mask is set exactly when the reserved field is zero. -/
theorem and_reservedMask_eq_zero_iff (w : Word) (fmt : Format) :
    w &&& reservedMask fmt = 0#32 ↔ w.extractLsb' fmt.reservedLow fmt.reservedWidth = 0#fmt.reservedWidth := by
  have hle := fmt.reservedLow_add_reservedWidth_le
  simp only [BitVec.eq_of_getLsbD_eq_iff, BitVec.getLsbD_and, BitVec.getLsbD_zero, BitVec.getLsbD_extractLsb',
    Bool.and_eq_false_iff]
  refine ⟨fun h k hk => ?_, fun h k hk => ?_⟩
  · have hbit := h (fmt.reservedLow + k) (by omega)
    rw [getLsbD_reservedMask fmt ⟨fmt.reservedLow + k, by omega⟩, decide_eq_false_iff_not] at hbit
    exact .inr (hbit.resolve_right (by simp [hk]))
  · rw [getLsbD_reservedMask fmt ⟨k, hk⟩, decide_eq_false_iff_not]
    by_cases hin : fmt.reservedLow ≤ k ∧ k < fmt.reservedLow + fmt.reservedWidth
    · have hbit := h (k - fmt.reservedLow) (by omega)
      rw [Nat.add_sub_cancel' hin.1, decide_eq_false_iff_not] at hbit
      exact .inl (hbit.resolve_left (by omega))
    · exact .inr hin

/-! ## A first word is its opcode, its fields and its reserved bits -/

/-- The operand bits that a word of a format stands for: its fields, zero where the format reserves bits. -/
def Format.operandBits : Format → Word → BitVec 24
  | .n, _ => 0#24
  | .t, w | .tp, w => tidField w ++ 0#16
  | .tsh, w => tidField w ++ slotField w ++ 0#4 ++ hidField w
  | .thp, w => tidField w ++ 0#8 ++ hidField w
  | .lk, w =>
    0#16 ++ BitVec.ofBool (blField w) ++ BitVec.ofBool (brField w) ++ BitVec.ofBool (swField w) ++
      BitVec.ofBool (kvField w) ++ keyField w
  | .qe, w => 0#22 ++ codeField w

theorem ofBool_getLsbD (w : Word) (k : Nat) : BitVec.ofBool (w.getLsbD k) = w.extractLsb' k 1 := by
  rw [BitVec.getLsbD_eq_extractLsb']
  generalize w.extractLsb' k 1 = b
  decide +revert

/-- A word with no reserved bit set has no other operand bits than its fields. -/
theorem operandBits_of_unreserved {w : Word} {fmt : Format} (h : w &&& reservedMask fmt = 0#32) :
    fmt.operandBits w = w.extractLsb' 0 24 := by
  rw [and_reservedMask_eq_zero_iff] at h
  cases fmt with
  | n => exact h.symm
  | t | tp =>
    have hzero : w.extractLsb' 0 16 = 0#16 := h
    rw [Format.operandBits, tidField, ← hzero, BitVec.extractLsb'_append_extractLsb'_eq_extractLsb' (by rfl)]
  | tsh =>
    have hzero : w.extractLsb' 8 4 = 0#4 := h
    rw [Format.operandBits, tidField, slotField, hidField, ← hzero]
    iterate 3 rw [BitVec.extractLsb'_append_extractLsb'_eq_extractLsb' (by rfl)]
  | thp =>
    have hzero : w.extractLsb' 8 8 = 0#8 := h
    rw [Format.operandBits, tidField, hidField, ← hzero]
    iterate 2 rw [BitVec.extractLsb'_append_extractLsb'_eq_extractLsb' (by rfl)]
  | lk =>
    have hzero : w.extractLsb' 8 16 = 0#16 := h
    rw [Format.operandBits, blField, brField, swField, kvField, keyField, ← hzero]
    iterate 4 rw [ofBool_getLsbD]
    iterate 5 rw [BitVec.extractLsb'_append_extractLsb'_eq_extractLsb' (by rfl)]
  | qe =>
    have hzero : w.extractLsb' 2 22 = 0#22 := h
    rw [Format.operandBits, codeField, ← hzero, BitVec.extractLsb'_append_extractLsb'_eq_extractLsb' (by rfl)]

theorem firstWord_operandBits {w : Word} {fmt : Format} (h : w &&& reservedMask fmt = 0#32) :
    firstWord (opcField w) (fmt.operandBits w) = w := by
  rw [operandBits_of_unreserved h, firstWord, opcField,
    BitVec.extractLsb'_append_extractLsb'_eq_extractLsb' (by rfl), BitVec.extractLsb'_eq_self]

/-! ## The rows of the opcode map (30_encoding.md R102) -/

/-- The operation of a row is encoded as the row's opcode with the fields of `w0`, and `w1` where the format has an
operand word. -/
theorem encode_build {opc : BitVec 8} {fmt : Format} {build : Word → Word → Instr}
    (hrow : opcodeRow opc = some (fmt, build)) (w0 w1 : Word) :
    encode (build w0 w1) = firstWord opc (fmt.operandBits w0) :: if formatWords fmt = 2 then [w1] else [] := by
  have hcases := opcodeRow_cases hrow
  casesm* _ ∨ _, _ ∧ _ <;> subst_vars <;> rfl

/-- What 30_encoding.md R103 finds wrong with a word of a format: a reserved bit is set, or it has a KEY without KV. -/
def Format.Faulty (fmt : Format) (w : Word) : Prop :=
  w &&& reservedMask fmt ≠ 0#32 ∨ fmt = .lk ∧ keyLegal (kvField w) (keyField w) = false

theorem Format.not_faulty_iff {fmt : Format} {w : Word} :
    ¬ fmt.Faulty w ↔ w &&& reservedMask fmt = 0#32 ∧ (fmt = .lk → keyLegal (kvField w) (keyField w) = true) := by
  simp [Format.Faulty]

theorem keyLegal_eq_false_iff {kv : Bool} {key : BitVec 4} : keyLegal kv key = false ↔ kv = false ∧ key ≠ 0#4 := by
  simp [keyLegal]

theorem Format.faulty_iff {fmt : Format} {w : Word} :
    fmt.Faulty w ↔ w.extractLsb' fmt.reservedLow fmt.reservedWidth ≠ 0#fmt.reservedWidth ∨
      fmt = .lk ∧ kvField w = false ∧ keyField w ≠ 0#4 := by
  rw [Format.Faulty, keyLegal_eq_false_iff, Ne, and_reservedMask_eq_zero_iff]

/-- The operation of a row is well-formed when its word has no fault: only the row of format LK can fail the check. -/
theorem wellFormed_build {opc : BitVec 8} {fmt : Format} {build : Word → Word → Instr}
    (hrow : opcodeRow opc = some (fmt, build)) {w0 : Word} (hgood : ¬ fmt.Faulty w0) (w1 : Word) :
    (build w0 w1).wellFormed = true := by
  obtain ⟨-, hkey⟩ := Format.not_faulty_iff.1 hgood
  have hcases := opcodeRow_cases hrow
  casesm* _ ∨ _, _ ∧ _ <;> subst_vars <;> simp [Instr.wellFormed, hkey]

/-- The opcodes of the rows of a format. -/
def Format.opcodes : Format → List Nat
  | .n => [0x01, 0x02, 0x20, 0x21, 0x22, 0x31, 0x32, 0x82, 0x8E, 0x8F]
  | .t => [0x12, 0x14, 0x81]
  | .tp => [0x10]
  | .tsh => [0x11]
  | .thp => [0x13]
  | .lk => [0x30]
  | .qe => [0x80]

theorem opcodeRow_of_mem_opcodes (fmt : Format) :
    ∀ k ∈ fmt.opcodes, (opcodeRow (BitVec.ofNat 8 k)).map Prod.fst = some fmt := by
  cases fmt <;> decide

theorem mem_opcodes_iff {opc : BitVec 8} {fmt : Format} :
    opc.toNat ∈ fmt.opcodes ↔ ∃ build, opcodeRow opc = some (fmt, build) := by
  constructor
  · intro hmem
    simpa using opcodeRow_of_mem_opcodes fmt _ hmem
  · rintro ⟨build, hrow⟩
    have hcases := opcodeRow_cases hrow
    casesm* _ ∨ _, _ ∧ _ <;> subst_vars <;> decide

theorem opcodeRow_eq_none_iff {opc : BitVec 8} : opcodeRow opc = none ↔ ∀ fmt : Format, opc.toNat ∉ fmt.opcodes := by
  simp [mem_opcodes_iff, Option.eq_none_iff_forall_ne_some, ← not_exists]

theorem channelOf_of_row_lk {opc : BitVec 8} {build : Word → Word → Instr} (hrow : opcodeRow opc = some (.lk, build)) :
    channelOf opc = .host := by
  have hmem : opc.toNat ∈ [0x30] := mem_opcodes_iff.2 ⟨build, hrow⟩
  rw [channelOf, List.mem_singleton.1 hmem, if_pos (by decide)]

/-! ## The decoder, case by case (30_encoding.md R105) -/

theorem decode_of_unassigned {w0 : Word} (hrow : opcodeRow (opcField w0) = none) (rest : List Word) :
    decode (w0 :: rest) = .illegal (channelOf (opcField w0)) .unassignedOpcode 1 := by
  simp only [decode, hrow]

section
variable {w0 : Word} {fmt : Format} {build : Word → Word → Instr} {rest : List Word} {w1 : Word}

theorem decode_of_no_operand (hrow : opcodeRow (opcField w0) = some (fmt, build))
    (hoperand : operandWord fmt rest = none) : decode (w0 :: rest) = .incomplete := by
  simp only [decode, hrow, hoperand]

theorem decode_of_faulty (hrow : opcodeRow (opcField w0) = some (fmt, build))
    (hoperand : operandWord fmt rest = some w1) (hbad : fmt.Faulty w0) :
    ∃ why, decode (w0 :: rest) = .illegal (channelOf (opcField w0)) why (formatWords fmt) := by
  simp only [decode, hrow, hoperand]
  split_ifs with hreserved hkey
  · exact ⟨_, rfl⟩
  · obtain ⟨rfl, -⟩ := hkey
    exact ⟨.keyWithoutKv, by rw [channelOf_of_row_lk hrow]⟩
  · exact absurd hbad (not_or.2 ⟨hreserved, hkey⟩)

theorem decode_of_not_faulty (hrow : opcodeRow (opcField w0) = some (fmt, build))
    (hoperand : operandWord fmt rest = some w1) (hgood : ¬ fmt.Faulty w0) :
    decode (w0 :: rest) = .op (build w0 w1) (formatWords fmt) := by
  obtain ⟨hreserved, hkey⟩ := not_or.1 hgood
  simp only [decode, hrow, hoperand, if_neg hreserved, if_neg hkey]

end

/-- All that decodes to an operation: a word of a row, without fault, with its operand word there. -/
theorem decode_eq_op {ws : List Word} {i : Instr} {n : Nat} (h : decode ws = .op i n) :
    ∃ w0 rest fmt build w1, ws = w0 :: rest ∧ opcodeRow (opcField w0) = some (fmt, build) ∧
      operandWord fmt rest = some w1 ∧ ¬ fmt.Faulty w0 ∧ i = build w0 w1 ∧ n = formatWords fmt := by
  rcases ws with _ | ⟨w0, rest⟩
  · cases h
  rcases hrow : opcodeRow (opcField w0) with _ | ⟨fmt, build⟩
  · rw [decode_of_unassigned hrow] at h
    cases h
  rcases hoperand : operandWord fmt rest with _ | w1
  · rw [decode_of_no_operand hrow hoperand] at h
    cases h
  by_cases hbad : fmt.Faulty w0
  · obtain ⟨why, hwhy⟩ := decode_of_faulty hrow hoperand hbad
    rw [hwhy] at h
    cases h
  · rw [decode_of_not_faulty hrow hoperand hbad] at h
    cases h
    exact ⟨w0, rest, fmt, build, w1, rfl, hrow, hoperand, hbad, rfl, rfl⟩

theorem formatWords_eq_one {fmt : Format} (h : formatWords fmt ≠ 2) : formatWords fmt = 1 := by
  cases fmt <;> simp_all [formatWords]

/-- The words of a format are its first word and, where it has one, its operand word. -/
theorem take_formatWords {fmt : Format} {rest : List Word} {w1 : Word} (h : operandWord fmt rest = some w1)
    (w0 : Word) : formatWords fmt ≤ (w0 :: rest).length ∧
      (w0 :: rest).take (formatWords fmt) = w0 :: if formatWords fmt = 2 then [w1] else [] := by
  unfold operandWord at h
  split_ifs at h with htwo
  · obtain ⟨ws, rfl⟩ := List.head?_eq_some_iff.1 h
    simp [htwo]
  · simp [formatWords_eq_one htwo]

/-- Settles O2: the operation is the one of its word's row, and no bit of the word lies outside its fields. -/
theorem encodeInvertsDecode : Obligations.EncodeInvertsDecode := by
  intro ws i n h
  obtain ⟨w0, rest, fmt, build, w1, rfl, hrow, hoperand, hgood, rfl, rfl⟩ := decode_eq_op h
  obtain ⟨hlen, htake⟩ := take_formatWords hoperand w0
  refine ⟨wellFormed_build hrow hgood w1, hlen, ?_⟩
  rw [htake, encode_build hrow, firstWord_operandBits (Format.not_faulty_iff.1 hgood).1]

/-! ## Which words are illegal (30_encoding.md R102, R103) -/

/-- A word that is no operation: its opcode has no row, or it is faulty in the format of its row. -/
def Rejected (w : Word) : Prop :=
  opcodeRow (opcField w) = none ∨ ∃ fmt build, opcodeRow (opcField w) = some (fmt, build) ∧ fmt.Faulty w

/-- With the operand word there, a rejected word is illegal on the channel of its opcode, and any other is an
operation. -/
theorem decode_op_or_illegal (w0 w1 : Word) (rest : List Word) :
    (¬ Rejected w0 ∧ ∃ i n, decode (w0 :: w1 :: rest) = .op i n) ∨
    (Rejected w0 ∧ ∃ why n, decode (w0 :: w1 :: rest) = .illegal (channelOf (opcField w0)) why n) := by
  rcases hrow : opcodeRow (opcField w0) with _ | ⟨fmt, build⟩
  · exact .inr ⟨.inl hrow, _, _, decode_of_unassigned hrow _⟩
  obtain ⟨w, hoperand⟩ : ∃ w, operandWord fmt (w1 :: rest) = some w := by
    unfold operandWord; split_ifs <;> exact ⟨_, rfl⟩
  by_cases hbad : fmt.Faulty w0
  · obtain ⟨why, hwhy⟩ := decode_of_faulty hrow hoperand hbad
    exact .inr ⟨.inr ⟨fmt, build, hrow, hbad⟩, why, _, hwhy⟩
  · exact .inl ⟨by simp [Rejected, hrow, hbad], _, _, decode_of_not_faulty hrow hoperand hbad⟩

/-- `Rejected` by opcodes in place of rows. -/
theorem rejected_iff_opcodes (w : Word) :
    Rejected w ↔ (∀ fmt : Format, (opcField w).toNat ∉ fmt.opcodes) ∨
      ∃ fmt : Format, (opcField w).toNat ∈ fmt.opcodes ∧ fmt.Faulty w := by
  simp only [Rejected, opcodeRow_eq_none_iff, mem_opcodes_iff, exists_and_right]

theorem Format.forall_iff {P : Format → Prop} :
    (∀ fmt, P fmt) ↔ P .n ∧ P .tp ∧ P .t ∧ P .tsh ∧ P .thp ∧ P .lk ∧ P .qe :=
  ⟨fun h => ⟨h _, h _, h _, h _, h _, h _, h _⟩, fun ⟨hn, htp, ht, htsh, hthp, hlk, hqe⟩ fmt => by
    cases fmt <;> assumption⟩

theorem Format.exists_iff {P : Format → Prop} :
    (∃ fmt, P fmt) ↔ P .n ∨ P .tp ∨ P .t ∨ P .tsh ∨ P .thp ∨ P .lk ∨ P .qe := by
  simpa only [not_forall_not, not_and_or, not_not] using not_congr (Format.forall_iff (P := fun fmt => ¬ P fmt))

/-- The faults of all formats, spelled out; formats T and TP reserve the same bits. -/
theorem exists_faulty_iff (opc : Nat) (w : Word) :
    (∃ fmt : Format, opc ∈ fmt.opcodes ∧ fmt.Faulty w) ↔
      (opc ∈ Format.n.opcodes ∧ w.extractLsb' 0 24 ≠ 0#24) ∨
      (opc ∈ Format.tp.opcodes ++ Format.t.opcodes ∧ w.extractLsb' 0 16 ≠ 0#16) ∨
      (opc ∈ Format.tsh.opcodes ∧ w.extractLsb' 8 4 ≠ 0#4) ∨
      (opc ∈ Format.thp.opcodes ∧ w.extractLsb' 8 8 ≠ 0#8) ∨
      (opc ∈ Format.lk.opcodes ∧ w.extractLsb' 8 16 ≠ 0#16) ∨
      (opc ∈ Format.lk.opcodes ∧ kvField w = false ∧ keyField w ≠ 0#4) ∨
      (opc ∈ Format.qe.opcodes ∧ w.extractLsb' 2 22 ≠ 0#22) := by
  simp only [Format.exists_iff, Format.faulty_iff, reduceCtorEq, false_and, and_false, or_false, true_and,
    List.mem_append, or_and_right, and_or_left, or_assoc]
  rfl

theorem forall_notMem_opcodes_iff (k : Nat) :
    (∀ fmt : Format, k ∉ fmt.opcodes) ↔
      k ∉ [0x01, 0x02, 0x10, 0x11, 0x12, 0x13, 0x14, 0x20, 0x21, 0x22, 0x30, 0x31, 0x32, 0x80, 0x81, 0x82, 0x8E,
        0x8F] := by
  simp only [Format.forall_iff, Format.opcodes, List.mem_cons, List.not_mem_nil, or_false, not_or]
  tauto

/-- Settles O4: `bad` is what the decoder rejects, written out by opcodes. -/
theorem illegalWordsAreExactlyThese : Obligations.IllegalWordsAreExactlyThese := by
  intro w0 w1 rest opc bad
  have hbad : Rejected w0 ↔ bad := by
    rw [rejected_iff_opcodes, forall_notMem_opcodes_iff, exists_faulty_iff]
    simp only [Format.opcodes, List.mem_singleton]
    rfl
  rw [← hbad]
  rcases decode_op_or_illegal w0 w1 rest with ⟨hgood, i, n, h⟩ | ⟨hrej, why, n, h⟩
  · simp [h, hgood]
  · have hch : channelOf (opcField w0) = if opc < 0x80 then .host else .event := rfl
    simp [h, hrej, hch]

/-- Settles O5: the words of an operation are its encoding; the three illegal words are decoded. -/
theorem specWordsDecode : Obligations.SpecWordsDecode :=
  ⟨decode_encode_append (i := .qdGetdir) rfl [],
   decode_encode_append (i := .tmrConfig 1#8 16383#32) rfl [],
   decode_encode_append (i := .tmrRegisr 0#8 2#4 9#8) rfl [],
   decode_encode_append (i := .tmrRegper 1#8 5#8 1000#32) rfl [],
   decode_encode_append (i := .srvCcw) rfl [],
   decode_encode_append (i := .lockCtrl true true true true 3#4) rfl [],
   decode_encode_append (i := .lockCtrl false false false true 0#4) rfl [],
   decode_encode_append (i := .evQdedge 0b10#2) rfl [],
   decode_encode_append (i := .evTmrtick 1#8) rfl [],
   decode_encode_append (i := .evSoftrst) rfl [],
   by decide, by decide, by decide⟩

end Sys2Proof

namespace Sys2Proof.Machine

/-! ## What a step does with the word it finds (30_encoding.md R93, R103, R105) -/

theorem State.holds_iff {s : State} {i : Instr} : s.holds i = true ↔ channelOf (opcode i) = .host ∧ s.busy = true := by
  simp [State.holds]

/-- Settles O7: a held command stays, and any other loses its words from the channel it came on. -/
theorem stepRunsDecodedInstruction : Obligations.StepRunsDecodedInstruction := by
  intro s ch rest i n hturns hop
  rw [step_of_op hturns hop]
  simp only [State.holds_iff]
  cases ch <;> rfl

theorem step_of_illegal {s : State} {ch c : Channel} {rest : List Channel} {why : Reject} {n : Nat}
    (hturns : s.turns = ch :: rest) (hill : decode (s.channel ch) = .illegal c why n) :
    step s = .next (((s.afterTurn rest).consume ch n).answerIllegal c) := by
  simp only [step, State.fetch, hturns, State.serve, State.afterTurn_channel, hill]

/-- Settles O8: on each channel the word is taken and `answerIllegal` answers it or not. -/
theorem stepAnswersIllegalWords : Obligations.StepAnswersIllegalWords :=
  fun _ _ _ _ => ⟨step_of_illegal (ch := .host), step_of_illegal (ch := .event)⟩

end Sys2Proof.Machine
end

section
/-! PROOFS of the family 40_quadrature: what one sample does to the decoder, and what a sequence of samples does. -/

namespace Sys2Proof.Machine

/-! ## The states a sample names -/

/-- The zero-extension of a sample loses nothing, so different samples name different states (40_quadrature.md R121). -/
theorem qstate_injective : Function.Injective qstate := by
  intro c d h
  have hcode : c.setWidth 3 = d.setWidth 3 := by rw [← qstate_code, ← qstate_code, h]
  bv_omega

theorem qstate_eq_lowLow_iff {c : BitVec 2} : qstate c = .lowLow ↔ c = 0b00#2 :=
  qstate_injective.eq_iff (b := 0b00#2)

theorem qstate_eq_lowHigh_iff {c : BitVec 2} : qstate c = .lowHigh ↔ c = 0b01#2 :=
  qstate_injective.eq_iff (b := 0b01#2)

theorem qstate_eq_highLow_iff {c : BitVec 2} : qstate c = .highLow ↔ c = 0b10#2 :=
  qstate_injective.eq_iff (b := 0b10#2)

theorem qstate_eq_highHigh_iff {c : BitVec 2} : qstate c = .highHigh ↔ c = 0b11#2 :=
  qstate_injective.eq_iff (b := 0b11#2)

/-! ## The step patterns (40_quadrature.md R123) -/

/-- Three samples that spell neither step triple are no step. -/
theorem stepPattern_eq_none {l p n : QState}
    (hcw : [l.code, p.code, n.code] ≠ [0b011#3, 0b010#3, 0b000#3])
    (hccw : [l.code, p.code, n.code] ≠ [0b011#3, 0b001#3, 0b000#3]) : stepPattern l p n = none := by
  rw [stepPattern, if_neg, if_neg]
  · rintro ⟨rfl, rfl, rfl⟩; exact hccw rfl
  · rintro ⟨rfl, rfl, rfl⟩; exact hcw rfl

/-- Both step triples begin at HIGH_HIGH, so none is completed while the older history field is UNKNOWN
(40_quadrature.md R131). -/
theorem stepPattern_unknown (p n : QState) : stepPattern .unknown p n = none :=
  stepPattern_eq_none (by simp [QState.code]) (by simp [QState.code])

/-! ## One sample (40_quadrature.md R124 to R126) -/

theorem QuadDecoder.sample_dir (q : QuadDecoder) (c : BitVec 2) :
    (q.sample c).dir =
      if q.last = .highHigh ∧ q.state = .highLow ∧ c = 0b00#2 then .clockwise
      else if q.last = .highHigh ∧ q.state = .lowHigh ∧ c = 0b00#2 then .counterclockwise
      else q.dir := by
  simp only [QuadDecoder.sample, stepPattern, qstate_eq_lowLow_iff]
  split_ifs <;> rfl

theorem QuadDecoder.sample_dir_of_no_step {q : QuadDecoder} {c : BitVec 2}
    (h : stepPattern q.last q.state (qstate c) = none) : (q.sample c).dir = q.dir := by
  simp [QuadDecoder.sample, h]

theorem QuadDecoder.sample_dir_of_last_unknown {q : QuadDecoder} (h : q.last = .unknown) (c : BitVec 2) :
    (q.sample c).dir = q.dir :=
  sample_dir_of_no_step (by rw [h, stepPattern_unknown])

/-- With nothing pending, an edge shows which triple was completed. -/
theorem QuadDecoder.sample_edge_iff {q : QuadDecoder} (hdir : q.dir = .stationary) (c : BitVec 2) :
    ((q.sample c).dir = .clockwise ↔ q.last = .highHigh ∧ q.state = .highLow ∧ c = 0b00#2) ∧
    ((q.sample c).dir = .counterclockwise ↔ q.last = .highHigh ∧ q.state = .lowHigh ∧ c = 0b00#2) := by
  rw [sample_dir, hdir]
  split_ifs with hcw hccw
  · simp [hcw]
  · simp [hccw]
  · simp [hcw, hccw]

/-! ## A sequence of samples -/

/-- A run of samples writes the decoder alone, one sample after another. -/
theorem execAll_evQdedge (codes : List (BitVec 2)) (s : State) :
    execAll (codes.map .evQdedge) s = .next { s with qd := codes.foldl QuadDecoder.sample s.qd } := by
  induction codes generalizing s with
  | nil => rfl
  | cons c codes ih => exact ih { s with qd := s.qd.sample c }

/-- The codes of the two history samples, then those of the samples to come: what R129 looks for triples in. -/
def QuadDecoder.sampleCodes (q : QuadDecoder) (codes : List (BitVec 2)) : List (BitVec 3) :=
  [q.last.code, q.state.code] ++ codes.map (·.setWidth 3)

/-- The first three codes are those that the next sample is matched on. -/
theorem QuadDecoder.match_infix_sampleCodes (q : QuadDecoder) (c : BitVec 2) (codes : List (BitVec 2)) :
    [q.last.code, q.state.code, (qstate c).code] <:+: q.sampleCodes (c :: codes) := by
  rw [qstate_code]
  exact (List.prefix_append _ (codes.map (·.setWidth 3))).isInfix

/-- A sample drops the oldest of the codes, because it shifts the history (40_quadrature.md R125). -/
theorem QuadDecoder.sampleCodes_cons (q : QuadDecoder) (c : BitVec 2) (codes : List (BitVec 2)) :
    q.sampleCodes (c :: codes) = q.last.code :: (q.sample c).sampleCodes codes := by
  simp [sampleCodes, sample, qstate_code]

theorem QuadDecoder.foldl_sample_dir {codes : List (BitVec 2)} {q : QuadDecoder}
    (hcw : ¬ [0b011#3, 0b010#3, 0b000#3] <:+: q.sampleCodes codes)
    (hccw : ¬ [0b011#3, 0b001#3, 0b000#3] <:+: q.sampleCodes codes) :
    (codes.foldl QuadDecoder.sample q).dir = q.dir := by
  induction codes generalizing q with
  | nil => rfl
  | cons c codes ih =>
    have hmatch := q.match_infix_sampleCodes c codes
    have hno : stepPattern q.last q.state (qstate c) = none :=
      stepPattern_eq_none (fun e => hcw (e ▸ hmatch)) (fun e => hccw (e ▸ hmatch))
    have hrest : (q.sample c).sampleCodes codes <:+: q.sampleCodes (c :: codes) := by
      rw [sampleCodes_cons]
      exact (List.suffix_cons _ _).isInfix
    calc (codes.foldl QuadDecoder.sample (q.sample c)).dir
        = (q.sample c).dir := ih (fun h => hcw (h.trans hrest)) (fun h => hccw (h.trans hrest))
      _ = q.dir := sample_dir_of_no_step hno

/-! ## The statements of 40_quadrature.md -/

/-- Settles O21: each sample is matched on three codes in a row of the sequence, so none completes a step. -/
theorem noStepTripleNoEdge : Obligations.NoStepTripleNoEdge :=
  fun s codes hcw hccw => ⟨_, execAll_evQdedge codes s, QuadDecoder.foldl_sample_dir hcw hccw⟩

/-- Settles O18: a host command that is not held has its effect, which is one response. -/
theorem qdSampleAnswersThePins : Obligations.QdSampleAnswersThePins :=
  fun _ hb => exec_of_host_of_not_busy hb rfl

/-- Settles O19: the response carries the edge from before it is cleared. -/
theorem qdGetdirConsumesTheEdge : Obligations.QdGetdirConsumesTheEdge :=
  fun _ hb => exec_of_host_of_not_busy hb rfl

/-- Settles O20: an event has its effect, busy or not, and that is one sample. -/
theorem qdEdgeShiftsHistoryAndDetectsSteps : Obligations.QdEdgeShiftsHistoryAndDetectsSteps :=
  fun s code => ⟨qstate code, (s.qd.sample code).dir, exec_of_event rfl, qstate_code code, s.qd.sample_dir code⟩

/-- Settles O22: the first two samples are matched with UNKNOWN, and the third on exactly the three samples. -/
theorem firstEdgeNeedsThreeSamples : Obligations.FirstEdgeNeedsThreeSamples := by
  intro s a b c hstate hlast hdir
  have hfirst : (s.qd.sample a).dir = .stationary :=
    (QuadDecoder.sample_dir_of_last_unknown hlast a).trans hdir
  have hsecond : ((s.qd.sample a).sample b).dir = .stationary :=
    (QuadDecoder.sample_dir_of_last_unknown (q := s.qd.sample a) hstate b).trans hfirst
  have hthird := QuadDecoder.sample_edge_iff hsecond c
  refine ⟨_, _, execAll_evQdedge [a, b] s, hsecond, exec_of_event rfl, ?_⟩
  rw [← qstate_eq_highHigh_iff, ← qstate_eq_highLow_iff, ← qstate_eq_lowHigh_iff]
  exact hthird

end Sys2Proof.Machine
end

section
/-! PROOFS of the family 41_timer: the timer commands, the period search in exact rationals, one tick and `n` ticks of a
counter timer, one microsecond and `n` microseconds of the tickers. -/

namespace Sys2Proof.Machine

/-! ## The timer commands, case by case -/

/-- TMR.CONFIG refuses an invalid id and a period below 1 microsecond (41_timer.md R148). -/
theorem tmrConfigRun_of_bad {tid : BitVec 8} {period : BitVec 32} (h : 2 ≤ tid.toNat ∨ period = 0#32) (s : State) :
    tmrConfigRun tid period s = s.respond .noSolution none := by
  unfold tmrConfigRun
  split
  · rfl
  · rename_i t ht
    have htid := timerIndex_eq_some.1 ht
    obtain rfl : period = 0#32 := h.resolve_left (by omega)
    rfl

theorem tmrResetRun_of_valid {tid : BitVec 8} {t : Fin 2} (ht : tid.toNat = t.val) (s : State) :
    tmrResetRun tid s = (s.setTimer t { s.tmr[t.val] with tcnt := 0 }).respond .ok none := by
  simp only [tmrResetRun, timerIndex_eq_some.2 ht]

theorem tmrResetRun_of_invalid {tid : BitVec 8} (htid : 2 ≤ tid.toNat) (s : State) :
    tmrResetRun tid s = s.respond .fail none := by
  simp only [tmrResetRun, timerIndex_eq_none.2 htid]

theorem tmrRegperRun_of_valid {tid : BitVec 8} {t : Fin 2} (ht : tid.toNat = t.val) {period : BitVec 32}
    (hperiod : period ≠ 0#32) (hid : BitVec 8) (s : State) :
    tmrRegperRun tid hid period s =
      (s.setTicker t { attached := true, period := period, handler := hid, elapsed := 0#32 }).respond .ok
        (some (.one 1#1)) := by
  have hpos : ¬ period.toNat < 1 := by bv_omega
  simp only [tmrRegperRun, timerIndex_eq_some.2 ht, if_neg hpos]

theorem tmrRegperRun_of_bad {tid : BitVec 8} {period : BitVec 32} (h : 2 ≤ tid.toNat ∨ period = 0#32)
    (hid : BitVec 8) (s : State) : tmrRegperRun tid hid period s = s.respond .fail (some (.one 0#1)) := by
  unfold tmrRegperRun
  split
  · rfl
  · rename_i t ht
    have htid := timerIndex_eq_some.1 ht
    obtain rfl : period = 0#32 := h.resolve_left (by omega)
    rfl

theorem tmrResetperRun_of_valid {tid : BitVec 8} {t : Fin 2} (ht : tid.toNat = t.val) (s : State) :
    tmrResetperRun tid s = (s.setTicker t s.tk[t.val].restarted).respond .ok none := by
  simp only [tmrResetperRun, timerIndex_eq_some.2 ht]

theorem tmrResetperRun_of_invalid {tid : BitVec 8} (htid : 2 ≤ tid.toNat) (s : State) :
    tmrResetperRun tid s = s.respond .fail none := by
  simp only [tmrResetperRun, timerIndex_eq_none.2 htid]

theorem Ticker.restarted_of_attached {k : Ticker} (ha : k.attached = true) :
    k.restarted = { k with elapsed := 0#32 } := if_pos ha

theorem Ticker.restarted_of_detached {k : Ticker} (ha : k.attached = false) : k.restarted = k :=
  if_neg (by simp [ha])

/-- Writing back the record a ticker already has is no write. -/
theorem State.setTicker_self (s : State) (t : Fin 2) : s.setTicker t s.tk[t.val] = s := by
  simp [State.setTicker]

/-- Settles O24: either fault of the request is answered before the search. -/
theorem tmrConfigRefusesBadRequests : Obligations.TmrConfigRefusesBadRequests := by
  intro s tid period hb hbad
  rw [exec_of_host_of_not_busy hb rfl, effect, tmrConfigRun_of_bad hbad]
  rfl

/-- Settles O26, for a valid and for an invalid id. -/
theorem tmrResetZeroesTheCounter : Obligations.TmrResetZeroesTheCounter := by
  intro s tid hb
  rw [exec_of_host_of_not_busy hb rfl, effect]
  constructor
  · intro t ht
    rw [tmrResetRun_of_valid ht]
    rfl
  · intro htid
    rw [tmrResetRun_of_invalid htid]
    rfl

/-- Settles O27, for a valid and for a refused request. -/
theorem tmrRegperAttachesTheTicker : Obligations.TmrRegperAttachesTheTicker := by
  intro s tid hid period hb
  rw [exec_of_host_of_not_busy hb rfl, effect]
  constructor
  · intro t ht hperiod
    rw [tmrRegperRun_of_valid ht hperiod]
    rfl
  · intro hbad
    rw [tmrRegperRun_of_bad hbad]
    rfl

/-- Settles O28: a detached ticker is written back as it is. -/
theorem tmrResetperRestartsThePhase : Obligations.TmrResetperRestartsThePhase := by
  intro s tid hb
  rw [exec_of_host_of_not_busy hb rfl, effect]
  refine ⟨fun t ht ha => ?_, fun t ht ha => ?_, fun htid => ?_⟩
  · rw [tmrResetperRun_of_valid ht, Ticker.restarted_of_attached ha]
    rfl
  · rw [tmrResetperRun_of_valid ht, Ticker.restarted_of_detached ha, State.setTicker_self]
    rfl
  · rw [tmrResetperRun_of_invalid htid]
    rfl

/-! ## The dispatch of a handler -/

/-- A handler in full: one PWM tick, or one CALLBACK (41_timer.md R160, R164). -/
theorem State.runHandler_eq (s : State) (src : Source) (h : BitVec 8) :
    s.runHandler src h = if h = 0#8 then { s with pwm := s.pwm.tick s.params }
      else { s with trace := s.trace ++ [.callback src h] } := rfl

theorem State.dispatch_of_registered {s : State} {t : Fin 2} {k : Fin 3} {h : BitVec 8}
    (hreg : s.tmr[t.val].handler[k.val] = some h) : s.dispatch t k = s.runHandler (.timer t k) h := by
  simp only [State.dispatch, hreg]

/-- Settles O33: slot and ticker run their handler in the same way. -/
theorem dispatchRunsThePwmTickOrEmitsACallback : Obligations.DispatchRunsThePwmTickOrEmitsACallback := by
  intro s t k h
  constructor
  · intro hreg
    rw [State.dispatch_of_registered hreg, State.runHandler_eq]
  · rintro rfl
    exact s.runHandler_eq _ _

/-! ## One tick of a counter timer -/

section
variable {tm : Timer} {width : Nat}

theorem Timer.nextCount_of_off (hmode : tm.mode = .off) : tm.nextCount width = tm.tcnt := by
  simp only [nextCount, hmode]

theorem Timer.nextCount_of_ctc (hmode : tm.mode = .ctc) :
    tm.nextCount width =
      if tm.tcnt + 1 = tm.ocra then 0 else if tm.tcnt + 1 = 2 ^ width then 0 else tm.tcnt + 1 := by
  simp only [nextCount, hmode]

theorem Timer.nextCount_of_normal (hmode : tm.mode = .normal) :
    tm.nextCount width = if tm.tcnt + 1 = 2 ^ width then 0 else tm.tcnt + 1 := by
  simp only [nextCount, hmode]

theorem Timer.fired_of_off (hmode : tm.mode = .off) : tm.fired width = [] := by
  simp only [fired, hmode]

theorem Timer.fired_of_ctc (hmode : tm.mode = .ctc) :
    tm.fired width =
      (if tm.tcnt + 1 = tm.ocra then [0] else []) ++ (if tm.tcnt + 1 = tm.ocrb then [1] else []) := by
  simp only [fired, hmode]

theorem Timer.fired_of_normal (hmode : tm.mode = .normal) :
    tm.fired width =
      (if tm.tcnt + 1 = 2 ^ width then [0] else []) ++ (if tm.tcnt + 1 = tm.ocra then [1] else []) ++
        (if tm.tcnt + 1 = tm.ocrb then [2] else []) := by
  simp only [fired, hmode]

end

theorem evTmrtickRun_of_valid {tid : BitVec 8} {t : Fin 2} (ht : tid.toNat = t.val) (s : State) :
    evTmrtickRun tid s = (s.tmr[t.val].fired s.params.timerWidth[t.val]).foldl (State.fireSlot t)
      (s.setTimer t { s.tmr[t.val] with tcnt := s.tmr[t.val].nextCount s.params.timerWidth[t.val] }) := by
  simp only [evTmrtickRun, timerIndex_eq_some.2 ht]

/-- Writing back the record a timer already has is no write. -/
theorem State.setTimer_self (s : State) (t : Fin 2) : s.setTimer t s.tmr[t.val] = s := by
  simp [State.setTimer]

theorem evTmrtickRun_of_off {tid : BitVec 8} {t : Fin 2} (ht : tid.toNat = t.val) {s : State}
    (hoff : s.tmr[t.val].mode = .off) : evTmrtickRun tid s = s := by
  rw [evTmrtickRun_of_valid ht, Timer.fired_of_off hoff, Timer.nextCount_of_off hoff]
  exact s.setTimer_self t

/-- A slot that fires under a condition dispatches under that condition when it is enabled (41_timer.md R157). -/
theorem State.foldl_fireSlot_if (s : State) (t : Fin 2) (k : Fin 3) (c : Prop) [Decidable c] {ie : BitVec 3}
    (hie : s.tmr[t.val].ie = ie) :
    (if c then [k] else []).foldl (State.fireSlot t) s =
      if c ∧ ie.getLsbD k.val = true then s.dispatch t k else s := by
  subst hie
  by_cases hc : c <;> simp [hc, State.fireSlot]

/-- A conditional dispatch writes no timer. -/
theorem State.if_dispatch_tmr (s : State) (t : Fin 2) (k : Fin 3) (c : Prop) [Decidable c] :
    (if c then s.dispatch t k else s).tmr = s.tmr := by
  split
  · exact (s.dispatch_frame t k).tmr
  · rfl

/-- Settles O29: without an index there is nothing to do, and an OFF timer keeps its count and fires nothing. -/
theorem tickOfNoConfiguredTimerIsIgnored : Obligations.TickOfNoConfiguredTimerIsIgnored := by
  rintro s tid (htid | ⟨t, ht, hoff⟩) <;> rw [exec_of_event rfl, effect]
  · simp only [evTmrtickRun, timerIndex_eq_none.2 htid]
  · rw [evTmrtickRun_of_off ht hoff]

/-- Settles O30: the two slots fire one after the other, and a dispatch leaves the enables as they are. -/
theorem tickInCtcMode : Obligations.TickInCtcMode := by
  intro s tid t ht hmode tm nxt s1 s2
  have hie1 : s1.tmr[t.val].ie = tm.ie := by simp [s1]
  have hie2 : s2.tmr[t.val].ie = tm.ie := by simp only [s2, State.if_dispatch_tmr, hie1]
  have hslot0 : (if nxt = tm.ocra then [0] else []).foldl (State.fireSlot t) s1 = s2 :=
    s1.foldl_fireSlot_if t 0 _ hie1
  have hslot1 := s2.foldl_fireSlot_if t 1 (nxt = tm.ocrb) hie2
  rw [exec_of_event rfl, effect, evTmrtickRun_of_valid ht, Timer.fired_of_ctc hmode, Timer.nextCount_of_ctc hmode,
    List.foldl_append]
  refine Eq.trans ?_ (congrArg Host.Outcome.next hslot1)
  rw [← hslot0]
  rfl

/-- Settles O31, with the three slots of the mode. -/
theorem tickInNormalMode : Obligations.TickInNormalMode := by
  intro s tid t ht hmode tm nxt full s1 s2 s3
  have hie1 : s1.tmr[t.val].ie = tm.ie := by simp [s1]
  have hie2 : s2.tmr[t.val].ie = tm.ie := by simp only [s2, State.if_dispatch_tmr, hie1]
  have hie3 : s3.tmr[t.val].ie = tm.ie := by simp only [s3, State.if_dispatch_tmr, hie2]
  have hslot0 : (if nxt = full then [0] else []).foldl (State.fireSlot t) s1 = s2 :=
    s1.foldl_fireSlot_if t 0 _ hie1
  have hslot1 : (if nxt = tm.ocra then [1] else []).foldl (State.fireSlot t) s2 = s3 :=
    s2.foldl_fireSlot_if t 1 _ hie2
  have hslot2 := s3.foldl_fireSlot_if t 2 (nxt = tm.ocrb) hie3
  rw [exec_of_event rfl, effect, evTmrtickRun_of_valid ht, Timer.fired_of_normal hmode,
    Timer.nextCount_of_normal hmode, List.foldl_append, List.foldl_append]
  refine Eq.trans ?_ (congrArg Host.Outcome.next hslot2)
  rw [← hslot1, ← hslot0]
  rfl

/-! ## The period search in exact rationals (41_timer.md R141 to R144, R165) -/

theorem exactCountQ_eq_div (f P p : Nat) : exactCountQ f P p = ((P * f : Nat) : ℚ) / ((p * 1000000 : Nat) : ℚ) := by
  simp [exactCountQ]

/-- The quotient rounded up is the ceiling of the exact quotient. -/
theorem ceil_natCast_div {n d c : Nat} (hd : 0 < d) : (c : ℤ) = ⌈(n : ℚ) / d⌉ ↔ c = (n + (d - 1)) / d := by
  have hdQ : (0 : ℚ) < d := by exact_mod_cast hd
  rw [eq_comm, Int.ceil_eq_iff, lt_div_iff₀ hdQ, div_le_iff₀ hdQ, eq_comm (a := c), Nat.div_eq_iff hd]
  have hlower : ((c : ℤ) - 1 : ℚ) * d < n ↔ c * d ≤ n + (d - 1) := by
    rw [sub_mul, one_mul, sub_lt_iff_lt_add]
    norm_cast
    omega
  rw [hlower]
  norm_cast
  omega

/-- The counts tried for a prescaler are the floor and the ceiling of the exact rational count (41_timer.md R142). -/
theorem mem_countsFor_iff_floor_or_ceil {f P p c : Nat} (hp : 0 < p) :
    c ∈ countsFor f P p ↔ (c : ℤ) = ⌊exactCountQ f P p⌋ ∨ (c : ℤ) = ⌈exactCountQ f P p⌉ := by
  have hd : 0 < p * 1000000 := by omega
  rw [mem_countsFor hp, exactCountQ_eq_div, ceil_natCast_div hd, Rat.floor_natCast_div_natCast]
  norm_cast

/-- What the search keeps of a prescaler and a count. -/
def candidateOf (f P p c : Nat) : Candidate :=
  { presc := p, count := c, err := ((periodNum p c : Int) - (P * f : Nat)).natAbs }

theorem mem_candidatesFor {f w P p : Nat} (hp : 0 < p) {d : Candidate} :
    d ∈ candidatesFor f w P p ↔ ∃ c, FloorCeilCandidate f w P p c ∧ candidateOf f P p c = d := by
  simp only [candidatesFor, FloorCeilCandidate, List.mem_map, List.mem_filter, mem_countsFor_iff_floor_or_ceil hp,
    decide_eq_true_eq, candidateOf]

theorem mem_candidates {ps : List Nat} (hps : ∀ p ∈ ps, 1 ≤ p) {f w P : Nat} {d : Candidate} :
    d ∈ candidates ps f w P ↔ ∃ p ∈ ps, ∃ c, FloorCeilCandidate f w P p c ∧ candidateOf f P p c = d := by
  simp only [candidates, List.mem_flatMap]
  exact exists_congr fun p => and_congr_right fun hp => mem_candidatesFor (hps p hp)

/-- The error the search compares is the rational error in units of `1 / F_CLK_HZ` (log entry 11). -/
theorem periodErrorQ_eq {f : Nat} (hf : 1 ≤ f) (P p c : Nat) :
    periodErrorQ f P p c = ((candidateOf f P p c).err : ℚ) / f := by
  have hfQ : (0 : ℚ) < f := by exact_mod_cast hf
  have hdiff : periodQ f p c - P = (((periodNum p c : ℤ) - (P * f : Nat) : ℤ) : ℚ) / f := by
    rw [periodQ, periodNum, div_sub' hfQ.ne']
    push_cast
    ring
  rw [periodErrorQ, hdiff, abs_div, abs_of_pos hfQ, candidateOf, Nat.cast_natAbs, Int.cast_abs]

theorem periodErrorQ_le_iff {f : Nat} (hf : 1 ≤ f) {P p c p' c' : Nat} :
    periodErrorQ f P p c ≤ periodErrorQ f P p' c' ↔ (candidateOf f P p c).err ≤ (candidateOf f P p' c').err := by
  have hfQ : (0 : ℚ) < f := by exact_mod_cast hf
  rw [periodErrorQ_eq hf, periodErrorQ_eq hf, div_le_div_iff_of_pos_right hfQ, Nat.cast_le]

theorem periodErrorQ_lt_iff {f : Nat} (hf : 1 ≤ f) {P p c p' c' : Nat} :
    periodErrorQ f P p c < periodErrorQ f P p' c' ↔ (candidateOf f P p c).err < (candidateOf f P p' c').err := by
  rw [← not_le, periodErrorQ_le_iff hf, not_le]

/-- The floor comes before the ceiling (41_timer.md R143). -/
theorem pairwise_countsFor (f P p : Nat) : (countsFor f P p).Pairwise (· < ·) := by
  unfold countsFor
  dsimp only
  split <;> simp

theorem pairwise_candidatesFor (f w P p : Nat) : (candidatesFor f w P p).Pairwise (·.count < ·.count) :=
  List.pairwise_map.2 ((pairwise_countsFor f P p).filter _)

/-- An element of a `flatMap` stands in the list of one element, after the lists of all earlier ones. -/
theorem flatMap_eq_append_cons {α β : Type} {g : α → List β} {xs : List α} {l1 l2 : List β} {b : β}
    (h : xs.flatMap g = l1 ++ b :: l2) :
    ∃ xs1 x xs2 m1 m2, xs = xs1 ++ x :: xs2 ∧ g x = m1 ++ b :: m2 ∧ l1 = xs1.flatMap g ++ m1 := by
  induction xs generalizing l1 with
  | nil => simp at h
  | cons x xs ih =>
    rw [List.flatMap_cons, List.append_eq_append_iff] at h
    have later : ∀ l, l1 = g x ++ l → xs.flatMap g = l ++ b :: l2 → ∃ xs1 y xs2 m1 m2,
        x :: xs = xs1 ++ y :: xs2 ∧ g y = m1 ++ b :: m2 ∧ l1 = xs1.flatMap g ++ m1 := by
      intro l hl1 hl
      obtain ⟨xs1, y, xs2, m1, m2, rfl, hy, rfl⟩ := ih hl
      exact ⟨x :: xs1, y, xs2, m1, m2, rfl, hy, by simp [hl1]⟩
    rcases h with ⟨l, hl1, hl⟩ | ⟨l, hx, hl⟩
    · exact later l hl1 hl
    · cases l with
      | nil => exact later [] (by simp [hx]) hl.symm
      | cons a l =>
        obtain ⟨rfl, -⟩ := List.cons.inj hl
        exact ⟨[], x, xs, l1, l, rfl, hx, by simp⟩

/-- The answer of the search, in the terms of the rule: a candidate of least error, the first such in the order of the
prescalers and, within one prescaler, of the counts (41_timer.md R142, R143). -/
theorem searchBest_eq_some {ps : List Nat} (hps : ∀ p ∈ ps, 1 ≤ p) {f w P : Nat} {d : Candidate}
    (h : searchBest ps f w P = some d) :
    ∃ j p c : Nat, ps[j]? = some p ∧ FloorCeilCandidate f w P p c ∧ candidateOf f P p c = d ∧
      (∀ p' ∈ ps, ∀ c', FloorCeilCandidate f w P p' c' → d.err ≤ (candidateOf f P p' c').err) ∧
      (∀ j' p' : Nat, j' < j → ps[j']? = some p' → ∀ c', FloorCeilCandidate f w P p' c' →
        d.err < (candidateOf f P p' c').err) ∧
      ∀ c', c' < c → FloorCeilCandidate f w P p c' → d.err < (candidateOf f P p c').err := by
  rcases searchBest_cases ps f w P with ⟨hnone, -⟩ | ⟨d', l1, l2, hsome, hl, hbefore, hafter⟩
  · rw [hnone] at h; contradiction
  obtain rfl : d' = d := Option.some.inj (hsome.symm.trans h)
  obtain ⟨ps1, p, ps2, m1, m2, rfl, hp, rfl⟩ := flatMap_eq_append_cons hl
  have hp0 : 1 ≤ p := hps p (by simp)
  obtain ⟨c, hc, rfl⟩ := (mem_candidatesFor hp0).1 (hp ▸ List.mem_append_cons_self : d' ∈ candidatesFor f w P p)
  refine ⟨ps1.length, p, c, by simp, hc, rfl, fun p' hp' c' hc' => ?_, fun j' p' hj' hp' c' hc' => ?_,
    fun c' hlt hc' => ?_⟩
  · have hmem := (mem_candidates hps).2 ⟨p', hp', c', hc', rfl⟩
    rw [hl, List.mem_append, List.mem_cons] at hmem
    rcases hmem with hmem | heq | hmem
    · exact (hbefore _ hmem).le
    · rw [heq]
    · exact hafter _ hmem
  · rw [List.getElem?_append_left hj'] at hp'
    have hmem' : p' ∈ ps1 := List.mem_of_getElem? hp'
    have hp'0 : 1 ≤ p' := hps p' (List.mem_append_left _ hmem')
    exact hbefore _ (List.mem_append_left _
      (List.mem_flatMap.2 ⟨p', hmem', (mem_candidatesFor hp'0).2 ⟨c', hc', rfl⟩⟩))
  · have hmem := (mem_candidatesFor hp0).2 ⟨c', hc', rfl⟩
    have hsorted := pairwise_candidatesFor f w P p
    rw [hp, List.pairwise_append, List.pairwise_cons] at hsorted
    obtain ⟨-, ⟨hlater, -⟩, -⟩ := hsorted
    rw [hp, List.mem_append, List.mem_cons] at hmem
    rcases hmem with hmem | heq | hmem
    · exact hbefore _ (List.mem_append_right _ hmem)
    · exact absurd (congrArg Candidate.count heq) hlt.ne
    · exact absurd (hlater _ hmem) hlt.not_gt

theorem searchBest_eq_none {ps : List Nat} (hps : ∀ p ∈ ps, 1 ≤ p) {f w P : Nat} (h : searchBest ps f w P = none) :
    ∀ p ∈ ps, ∀ c, ¬ FloorCeilCandidate f w P p c := by
  rcases searchBest_cases ps f w P with ⟨-, hnil⟩ | ⟨d, l1, l2, hsome, -⟩
  · intro p hp c hc
    have hmem := (mem_candidates hps).2 ⟨p, hp, c, hc, rfl⟩
    rw [hnil] at hmem
    contradiction
  · rw [hsome] at h; contradiction

/-- The record of a configured timer, field by field (41_timer.md R145 to R147). -/
theorem Timer.configured_eq (tm : Timer) (w p c : Nat) :
    tm.configured w p c =
      { mode := if c = 2 ^ w then .normal else .ctc
        presc := p
        top := c
        tcnt := 0
        ocra := if c = 2 ^ w then 2 * 2 ^ w / 3 else c
        ocrb := if c = 2 ^ w then 2 * 2 ^ w / 3 / 2 else c / 2
        ie := if c = 2 ^ w then tm.ie else tm.ie &&& 0b011#3
        handler := if c = 2 ^ w then tm.handler else tm.handler.set 2 none } := by
  have hie : tm.ie &&& BitVec.ofNat 3 (2 ^ 3 - 1) = tm.ie := BitVec.and_allOnes
  have hall : tm.handler.mapIdx (fun i h => if 3 ≤ i then none else h) = tm.handler := by
    ext i hi : 1
    simp [Nat.not_le.2 hi]
  have htwo : tm.handler.mapIdx (fun i h => if 2 ≤ i then none else h) = tm.handler.set 2 none := by
    ext i hi : 1
    rw [Vector.getElem_mapIdx, Vector.getElem_set]
    by_cases hi2 : 2 = i
    · simp [hi2]
    · rw [if_neg hi2, if_neg (by omega)]
  by_cases hc : c = 2 ^ w
  · simp only [Timer.configured, Timer.dropSlots, Timer.nslots, modeFor, compareB, compareA, if_pos hc, hie, hall]
  · simp only [Timer.configured, Timer.dropSlots, Timer.nslots, modeFor, compareB, compareA, if_neg hc, htwo]
    rfl

theorem tmrConfigRun_of_no_candidate {tid : BitVec 8} {t : Fin 2} (ht : tid.toNat = t.val) {period : BitVec 32}
    {s : State}
    (hbest : searchBest s.params.prescalers[t.val] s.params.fClkHz s.params.timerWidth[t.val] period.toNat = none) :
    tmrConfigRun tid period s = s.respond .noSolution none := by
  simp only [tmrConfigRun, timerIndex_eq_some.2 ht, hbest, ite_self]

theorem tmrConfigRun_of_candidate {tid : BitVec 8} {t : Fin 2} (ht : tid.toNat = t.val) {period : BitVec 32}
    (hperiod : 1 ≤ period.toNat) {s : State} {d : Candidate}
    (hbest : searchBest s.params.prescalers[t.val] s.params.fClkHz s.params.timerWidth[t.val] period.toNat = some d) :
    tmrConfigRun tid period s =
      (s.setTimer t (s.tmr[t.val].configured s.params.timerWidth[t.val] d.presc d.count)).respond .ok
        (some (.period (periodNum d.presc d.count) s.params.fClkHz)) := by
  simp only [tmrConfigRun, timerIndex_eq_some.2 ht, hbest, if_neg (Nat.not_lt.2 hperiod)]

/-- Settles O23: the integer errors that the search compares order the candidates as the exact rational errors do. -/
theorem tmrConfigTakesTheFirstNearestCandidate : Obligations.TmrConfigTakesTheFirstNearestCandidate := by
  intro s tid period t hwf hb ht hperiod f w ps P
  obtain ⟨hf, -, hprescalers, -⟩ := hwf
  obtain ⟨-, -, hps⟩ := hprescalers t
  rw [exec_of_host_of_not_busy hb rfl, effect]
  cases hbest : searchBest ps f w P with
  | none =>
    left
    refine ⟨searchBest_eq_none hps hbest, ?_⟩
    rw [tmrConfigRun_of_no_candidate ht hbest]
    rfl
  | some d =>
    right
    obtain ⟨j, p, c, hj, hc, rfl, hleast, hearlier, hlower⟩ := searchBest_eq_some hps hbest
    refine ⟨j, p, c, hj, hc, ?_, ?_, ?_, ?_⟩
    · exact fun p' hp' c' hc' => (periodErrorQ_le_iff hf).2 (hleast p' hp' c' hc')
    · exact fun j' p' hj' hp' c' hc' => (periodErrorQ_lt_iff hf).2 (hearlier j' p' hj' hp' c' hc')
    · exact fun c' hlt hc' => (periodErrorQ_lt_iff hf).2 (hlower c' hlt hc')
    · rw [tmrConfigRun_of_candidate ht hperiod hbest, Timer.configured_eq]
      rfl

/-! ## One microsecond (41_timer.md R163, R164) -/

/-- This microsecond ends the period of the ticker (41_timer.md R163). -/
abbrev Ticker.Due (k : Ticker) : Prop := k.attached = true ∧ k.period.toNat ≤ (k.elapsed + 1#32).toNat

/-- One microsecond of a ticker in full: its phase, and one run of its handler when it is due. -/
theorem State.tickTicker_eq (s : State) (t : Fin 2) :
    s.tickTicker t = { s with
      tk := s.tk.set t.val s.tk[t.val].ticked t.isLt
      pwm := (Pwm.tick s.params)^[if s.tk[t.val].Due ∧ s.tk[t.val].handler = 0#8 then 1 else 0] s.pwm
      trace := s.trace ++
        if s.tk[t.val].Due ∧ s.tk[t.val].handler ≠ 0#8 then [.callback (.ticker t) s.tk[t.val].handler] else [] } := by
  unfold State.tickTicker Ticker.ticked Ticker.Due
  dsimp only
  split
  · rename_i ha
    split
    · rename_i hdue
      by_cases h0 : s.tk[t.val].handler = 0#8 <;>
        simp [State.dispatchTicker, State.runHandler, ha, hdue, h0, State.pwmTick, State.emit, State.setTicker,
          -BitVec.toNat_add]
    · rename_i hdue
      simp [ha, hdue, State.setTicker, -BitVec.toNat_add]
  · rename_i ha
    simp [ha]

/-- The phase of a ticker after one microsecond, in one line. -/
theorem Ticker.ticked_eq (k : Ticker) :
    k.ticked = { k with
      elapsed := if k.attached = true then (if k.Due then 0#32 else k.elapsed + 1#32) else k.elapsed } := by
  unfold Ticker.ticked
  by_cases ha : k.attached = true
  · simp only [if_pos ha, and_iff_right ha]
    split <;> rfl
  · simp only [if_neg ha]

/-- A blink phase ends at this point (43_lock_fsm.md R239). -/
abbrev State.PhaseOver (s : State) : Prop :=
  s.blink.phases ≠ 0#3 ∧ s.params.blinkPhaseUs ≤ (s.usCounter - s.blink.start).toNat

/-- The LED is on in the even phases that are left, and off at the end (43_lock_fsm.md R239). -/
theorem even_phase_eq (n : BitVec 3) :
    decide (n = 2#3 ∨ n = 4#3 ∨ n = 6#3) = (n != 0#3 && n.toNat % 2 == 0) := by
  decide +revert

/-- The end of a blink phase in full. -/
theorem State.endPhase_eq (s : State) :
    s.endPhase = { s with
      blink :=
        { led := decide (s.blink.phases - 1#3 = 2#3 ∨ s.blink.phases - 1#3 = 4#3 ∨ s.blink.phases - 1#3 = 6#3)
          phases := s.blink.phases - 1#3
          start := s.usCounter
          pendingDisplay := s.blink.pendingDisplay && decide (s.blink.phases - 1#3 ≠ 0#3) }
      trace := s.trace ++
        if s.blink.phases - 1#3 = 0#3 ∧ s.blink.pendingDisplay = true then
          [.display s.lock.displayRecord] else [] } := by
  rw [even_phase_eq, State.endPhase]
  generalize s.blink.phases - 1#3 = left
  by_cases hleft : left = 0#3
  · cases hp : s.blink.pendingDisplay <;> simp [hleft, State.emitDisplay, State.emit]
  · simp [hleft]

theorem State.blinkAdvance_eq_if (s : State) : s.blinkAdvance = if s.PhaseOver then s.endPhase else s := by
  unfold State.blinkAdvance State.busy State.PhaseOver
  simp only [Bool.and_eq_true, bne_iff_ne, decide_eq_true_eq]

/-- `blink_advance` in full. -/
theorem State.blinkAdvance_eq (s : State) :
    s.blinkAdvance = { s with
      blink := if s.PhaseOver then
          { led := decide (s.blink.phases - 1#3 = 2#3 ∨ s.blink.phases - 1#3 = 4#3 ∨ s.blink.phases - 1#3 = 6#3)
            phases := s.blink.phases - 1#3
            start := s.usCounter
            pendingDisplay := s.blink.pendingDisplay && decide (s.blink.phases - 1#3 ≠ 0#3) }
        else s.blink
      trace := s.trace ++
        if s.PhaseOver ∧ s.blink.phases - 1#3 = 0#3 ∧ s.blink.pendingDisplay = true then
          [.display s.lock.displayRecord] else [] } := by
  rw [State.blinkAdvance_eq_if]
  split
  · rename_i hover
    rw [State.endPhase_eq]
    simp only [and_iff_right hover]
  · rename_i hover
    rw [if_neg fun ⟨h, _⟩ => hover h, List.append_nil]

/-- EV.USTICK up to the blink, in full: the counter, then ticker 0, then ticker 1 (41_timer.md R163). -/
theorem State.microsecond_eq (s : State) :
    s.microsecond = { s with
      usCounter := s.usCounter + 1#32
      tk := #v[s.tk[0].ticked, s.tk[1].ticked]
      pwm := (Pwm.tick s.params)^[(if s.tk[0].Due ∧ s.tk[0].handler = 0#8 then 1 else 0) +
                                  (if s.tk[1].Due ∧ s.tk[1].handler = 0#8 then 1 else 0)] s.pwm
      trace := s.trace ++
        (if s.tk[0].Due ∧ s.tk[0].handler ≠ 0#8 then [.callback (.ticker 0) s.tk[0].handler] else []) ++
        (if s.tk[1].Due ∧ s.tk[1].handler ≠ 0#8 then [.callback (.ticker 1) s.tk[1].handler] else []) } := by
  have htk : (s.tk.set 0 s.tk[0].ticked).set 1 s.tk[1].ticked = #v[s.tk[0].ticked, s.tk[1].ticked] := by
    ext i hi : 1
    obtain rfl | rfl : i = 0 ∨ i = 1 := by omega
    · simp
    · simp
  have hother : (s.tk.set 0 s.tk[0].ticked)[1] = s.tk[1] := by simp
  unfold State.microsecond
  rw [State.tickTicker_eq, State.tickTicker_eq]
  simp only [Fin.val_zero, Fin.val_one, hother, htk, ← Function.iterate_add_apply]
  rw [Nat.add_comm]

/-- Settles O34: the microsecond up to the blink, and then `blink_advance` at the new counter. -/
theorem ustickAdvancesCounterTickersAndBlink : Obligations.UstickAdvancesCounterTickersAndBlink := by
  intro s us due phaseOver left
  refine ⟨_, s.tk[0].ticked, s.tk[1].ticked, exec_of_event rfl, ?_, s.tk[0].ticked_eq, s.tk[1].ticked_eq⟩
  rw [effect, evUstickRun_eq, State.blinkAdvance_eq, State.microsecond_eq]
  rfl

/-! ## `n` microseconds -/

/-- A run of one event is its effect iterated: events are never held (60_exceptions.md R270). -/
theorem execAll_replicate_event {i : Instr} (hi : channelOf (opcode i) = .event) (n : Nat) (s : State) :
    execAll (List.replicate n i) s = .next ((effect i)^[n] s) := by
  induction n generalizing s with
  | zero => rfl
  | succ n ih =>
    rw [List.replicate_succ, execAll, exec_of_event hi, Function.iterate_succ_apply]
    exact ih _

theorem iterate_effect_params (i : Instr) (n : Nat) (s : State) : ((effect i)^[n] s).params = s.params := by
  induction n with
  | zero => rfl
  | succ n ih => rw [Function.iterate_succ_apply', effect_params, ih]

theorem Ticker.Inv.elapsed_lt {k : Ticker} (h : k.Inv) (ha : k.attached = true) :
    k.elapsed.toNat < k.period.toNat := by
  obtain ⟨hattached, -⟩ := h
  exact (hattached ha).2

/-- The phase is below the period, so the next microsecond does not wrap the 32 bits of the phase (41_timer.md R163). -/
theorem Ticker.Inv.toNat_elapsed_add_one {k : Ticker} (h : k.Inv) (ha : k.attached = true) :
    (k.elapsed + 1#32).toNat = k.elapsed.toNat + 1 := by
  have hlt := h.elapsed_lt ha
  have hperiod := k.period.isLt
  rw [BitVec.toNat_add, BitVec.toNat_ofNat]
  omega

theorem Ticker.Inv.due_iff {k : Ticker} (h : k.Inv) (ha : k.attached = true) :
    k.Due ↔ k.period.toNat ∣ k.elapsed.toNat + 1 := by
  have hlt := h.elapsed_lt ha
  rw [Ticker.Due, and_iff_right ha, h.toNat_elapsed_add_one ha]
  constructor
  · intro hle
    rw [show k.elapsed.toNat + 1 = k.period.toNat by omega]
  · exact Nat.le_of_dvd (by omega)

theorem Ticker.Inv.ticked_eq_mod {k : Ticker} (h : k.Inv) (ha : k.attached = true) :
    k.ticked = { k with elapsed := BitVec.ofNat 32 ((k.elapsed.toNat + 1) % k.period.toNat) } := by
  have hlt := h.elapsed_lt ha
  rw [Ticker.ticked_eq, if_pos ha]
  by_cases hdue : k.Due
  · rw [if_pos hdue, Nat.mod_eq_zero_of_dvd ((h.due_iff ha).1 hdue)]
  · have hnot : ¬ k.period.toNat ≤ k.elapsed.toNat + 1 := fun hle =>
      hdue ⟨ha, (h.toNat_elapsed_add_one ha).symm ▸ hle⟩
    rw [if_neg hdue, Nat.mod_eq_of_lt (Nat.not_le.1 hnot), BitVec.ofNat_add, BitVec.ofNat_toNat, BitVec.setWidth_eq]

theorem Ticker.ticked_of_detached {k : Ticker} (ha : k.attached = false) : k.ticked = k :=
  if_neg (by simp [ha])

theorem Ticker.Inv.iterate {k : Ticker} (h : k.Inv) (n : Nat) : (Ticker.ticked^[n] k).Inv := by
  induction n with
  | zero => exact h
  | succ n ih => rw [Function.iterate_succ_apply']; exact ih.ticked

theorem Ticker.Inv.toNat_phase {k : Ticker} (h : k.Inv) (ha : k.attached = true) (n : Nat) :
    (BitVec.ofNat 32 (n % k.period.toNat)).toNat = n % k.period.toNat := by
  rw [BitVec.toNat_ofNat]
  exact Nat.mod_eq_of_lt ((Nat.mod_lt _ (h.period_pos ha)).trans k.period.isLt)

/-- In `n` microseconds the phase of an attached ticker moves by `n` modulo its period (41_timer.md R163). -/
theorem Ticker.Inv.iterate_ticked {k : Ticker} (h : k.Inv) (ha : k.attached = true) (n : Nat) :
    Ticker.ticked^[n] k = { k with elapsed := BitVec.ofNat 32 ((k.elapsed.toNat + n) % k.period.toNat) } := by
  induction n with
  | zero => rw [Nat.add_zero, Nat.mod_eq_of_lt (h.elapsed_lt ha), BitVec.ofNat_toNat, BitVec.setWidth_eq]; rfl
  | succ n ih =>
    have hinv := h.iterate n
    rw [ih] at hinv
    rw [Function.iterate_succ_apply', ih, hinv.ticked_eq_mod ha, h.toNat_phase ha,
      Nat.mod_add_mod, Nat.add_assoc]

/-- How often an attached ticker fires in `n` microseconds (41_timer.md R164). -/
def Ticker.firings (k : Ticker) (n : Nat) : Nat :=
  if k.attached = true then (k.elapsed.toNat + n) / k.period.toNat else 0

theorem Ticker.Inv.firings_zero {k : Ticker} (h : k.Inv) : k.firings 0 = 0 := by
  unfold Ticker.firings
  split
  · rename_i ha
    exact Nat.div_eq_of_lt (h.elapsed_lt ha)
  · rfl

theorem Ticker.Inv.firings_succ {k : Ticker} (h : k.Inv) (n : Nat) :
    k.firings (n + 1) = k.firings n + if (Ticker.ticked^[n] k).Due then 1 else 0 := by
  cases ha : k.attached with
  | true =>
    have hinv := h.iterate n
    have hdue : (Ticker.ticked^[n] k).Due ↔ k.period.toNat ∣ k.elapsed.toNat + n + 1 := by
      rw [h.iterate_ticked ha] at hinv ⊢
      rw [hinv.due_iff ha, h.toNat_phase ha, Nat.dvd_iff_mod_eq_zero, Nat.mod_add_mod,
        Nat.dvd_iff_mod_eq_zero]
    simp only [Ticker.firings, ha, if_true, hdue]
    exact Nat.succ_div
  | false =>
    rw [Function.iterate_fixed (Ticker.ticked_of_detached ha)]
    simp [Ticker.firings, ha]

theorem Ticker.Inv.iterate_ticked_handler {k : Ticker} (h : k.Inv) (n : Nat) :
    (Ticker.ticked^[n] k).handler = k.handler := by
  cases ha : k.attached with
  | true => rw [h.iterate_ticked ha]
  | false => rw [Function.iterate_fixed (Ticker.ticked_of_detached ha)]

/-- How many of these firings are PWM ticks (42_pwm_servo.md R187). -/
def Ticker.pwmFirings (k : Ticker) (n : Nat) : Nat := if k.handler = 0#8 then k.firings n else 0

theorem Ticker.Inv.pwmFirings_zero {k : Ticker} (h : k.Inv) : k.pwmFirings 0 = 0 := by
  rw [Ticker.pwmFirings, h.firings_zero, ite_self]

theorem Ticker.Inv.pwmFirings_succ {k : Ticker} (h : k.Inv) (n : Nat) :
    k.pwmFirings (n + 1) =
      k.pwmFirings n + if (Ticker.ticked^[n] k).Due ∧ (Ticker.ticked^[n] k).handler = 0#8 then 1 else 0 := by
  unfold Ticker.pwmFirings
  rw [h.iterate_ticked_handler, h.firings_succ]
  by_cases h0 : k.handler = 0#8 <;> simp only [h0, and_true, and_false, if_true, if_false]

theorem evUstickRun_tk (s : State) (k : Fin 2) : (evUstickRun s).tk[k.val] = s.tk[k.val].ticked := by
  rw [evUstickRun_eq, State.blinkAdvance_eq, State.microsecond_eq]
  obtain rfl | rfl : k = 0 ∨ k = 1 := by omega
  · rfl
  · rfl

theorem iterate_evUstickRun_tk (s : State) (k : Fin 2) (n : Nat) :
    (evUstickRun^[n] s).tk[k.val] = Ticker.ticked^[n] s.tk[k.val] := by
  induction n with
  | zero => rfl
  | succ n ih => rw [Function.iterate_succ_apply', Function.iterate_succ_apply', evUstickRun_tk, ih]

/-- The PWM ticks of one microsecond (42_pwm_servo.md R187). -/
theorem evUstickRun_pwm_eq (s : State) :
    (evUstickRun s).pwm =
      (Pwm.tick s.params)^[(if s.tk[0].Due ∧ s.tk[0].handler = 0#8 then 1 else 0) +
        (if s.tk[1].Due ∧ s.tk[1].handler = 0#8 then 1 else 0)] s.pwm := by
  rw [evUstickRun_eq, State.blinkAdvance_pwm, State.microsecond_eq]

theorem count_callback_if (c : Prop) [Decidable c] (src src' : Source) (g h : BitVec 8) :
    (if c then [OutEvent.callback src g] else []).count (.callback src' h) =
      if c ∧ src = src' ∧ g = h then 1 else 0 := by
  by_cases hc : c <;> simp [hc, List.count_singleton]

/-- An external handler of a ticker is called back once in each microsecond that ends its period. -/
theorem evUstickRun_count (s : State) (k : Fin 2) {h : BitVec 8} (hh : s.tk[k.val].handler = h) (h0 : h ≠ 0#8) :
    (evUstickRun s).trace.count (.callback (.ticker k) h) =
      s.trace.count (.callback (.ticker k) h) + if s.tk[k.val].Due then 1 else 0 := by
  have hdisplay : (evUstickRun s).trace.count (.callback (.ticker k) h) =
      s.microsecond.trace.count (.callback (.ticker k) h) := by
    rw [evUstickRun_eq, State.blinkAdvance_eq, List.count_append]
    split <;> simp
  rw [hdisplay, State.microsecond_eq, List.count_append, List.count_append, count_callback_if, count_callback_if]
  obtain rfl | rfl : k = 0 ∨ k = 1 := by omega
  · have hh0 : s.tk[0].handler = h := hh
    simp [hh0, h0]
  · have hh1 : s.tk[1].handler = h := hh
    simp [hh1, h0]

theorem iterate_evUstickRun_pwm {s : State} (h : s.TickersInv) (n : Nat) :
    (evUstickRun^[n] s).pwm = (Pwm.tick s.params)^[s.tk[0].pwmFirings n + s.tk[1].pwmFirings n] s.pwm := by
  have h0 : s.tk[0].Inv := h 0
  have h1 : s.tk[1].Inv := h 1
  induction n with
  | zero => rw [h0.pwmFirings_zero, h1.pwmFirings_zero]; rfl
  | succ n ih =>
    have hparams : (evUstickRun^[n] s).params = s.params := iterate_effect_params .evUstick n s
    have htk0 : (evUstickRun^[n] s).tk[0] = Ticker.ticked^[n] s.tk[0] := iterate_evUstickRun_tk s 0 n
    have htk1 : (evUstickRun^[n] s).tk[1] = Ticker.ticked^[n] s.tk[1] := iterate_evUstickRun_tk s 1 n
    rw [Function.iterate_succ_apply', evUstickRun_pwm_eq, ih, hparams, htk0, htk1, ← Function.iterate_add_apply,
      h0.pwmFirings_succ, h1.pwmFirings_succ, Nat.add_comm, Nat.add_add_add_comm]

theorem iterate_evUstickRun_count {s : State} {k : Fin 2} (h : s.tk[k.val].Inv) (h0 : s.tk[k.val].handler ≠ 0#8)
    (n : Nat) :
    (evUstickRun^[n] s).trace.count (.callback (.ticker k) s.tk[k.val].handler) =
      s.trace.count (.callback (.ticker k) s.tk[k.val].handler) + s.tk[k.val].firings n := by
  induction n with
  | zero => rw [h.firings_zero]; rfl
  | succ n ih =>
    have hhandler : (evUstickRun^[n] s).tk[k.val].handler = s.tk[k.val].handler := by
      rw [iterate_evUstickRun_tk, h.iterate_ticked_handler]
    rw [Function.iterate_succ_apply', evUstickRun_count _ k hhandler h0, ih, iterate_evUstickRun_tk, h.firings_succ,
      Nat.add_assoc]

/-- Settles O35: phase, callbacks and PWM ticks after `n` microseconds, each by induction on `n`. -/
theorem tickerFiresOncePerPeriod : Obligations.TickerFiresOncePerPeriod := by
  intro s k n h ha
  have hfirings : s.tk[k.val].firings n = (s.tk[k.val].elapsed.toNat + n) / s.tk[k.val].period.toNat := if_pos ha
  refine ⟨evUstickRun^[n] s, execAll_replicate_event rfl n s, ?_, fun h0 => ?_, ?_⟩
  · rw [iterate_evUstickRun_tk, h.iterate_ticked ha]
  · rw [iterate_evUstickRun_count h h0, hfirings]
  · intro hall ticks
    have hticks : ∀ j : Fin 2, ticks j = s.tk[j.val].pwmFirings n := by
      intro j
      by_cases h0 : s.tk[j.val].handler = 0#8 <;>
        simp only [ticks, Ticker.pwmFirings, Ticker.firings, h0, and_true, and_false, if_true, if_false]
    rw [iterate_evUstickRun_pwm hall, hticks 0, hticks 1]
    rfl

/-! ## `n` ticks of a counter timer -/

/-- The count whose tick fires a slot; 0 for a slot that never fires (41_timer.md R149, R158, R159). -/
def Timer.fireCount (tm : Timer) : Fin 3 → Nat
  | 0 => tm.top
  | 1 => if tm.mode = .normal then tm.ocra else tm.ocrb
  | 2 => if tm.mode = .normal then tm.ocrb else 0

section
variable {tm : Timer} {width : Nat} {ps : List Nat} (h : tm.Inv width ps)
include h

/-- A configured timer counts modulo its selected count (41_timer.md R158, R159). -/
theorem Timer.Inv.nextCount_eq_mod (hmode : tm.mode ≠ .off) : tm.nextCount width = (tm.tcnt + 1) % tm.top := by
  obtain ⟨-, -, -, normalRegs, ctcRegs⟩ := h
  have wrap : tm.tcnt < tm.top → (if tm.tcnt + 1 = tm.top then 0 else tm.tcnt + 1) = (tm.tcnt + 1) % tm.top := by
    intro hlt
    split
    · rename_i heq; rw [heq, Nat.mod_self]
    · rw [Nat.mod_eq_of_lt (by omega)]
  cases hm : tm.mode with
  | off => exact absurd hm hmode
  | normal =>
    obtain ⟨-, htop, hlt, -⟩ := normalRegs hm
    rw [nextCount_of_normal hm, ← wrap (htop ▸ hlt), htop]
  | ctc =>
    obtain ⟨-, -, htop, hlt, hocra, -⟩ := ctcRegs hm
    rw [nextCount_of_ctc hm, hocra, if_neg (c := tm.tcnt + 1 = 2 ^ width) (by omega), wrap hlt]

/-- The slots a tick fires are those whose count it reaches (41_timer.md R157). -/
theorem Timer.Inv.fired_eq_filter (hmode : tm.mode ≠ .off) :
    tm.fired width = [0, 1, 2].filter fun k => tm.tcnt + 1 = tm.fireCount k := by
  obtain ⟨-, -, -, normalRegs, ctcRegs⟩ := h
  cases hm : tm.mode with
  | off => exact absurd hm hmode
  | normal =>
    obtain ⟨-, htop, -⟩ := normalRegs hm
    simp only [fired_of_normal hm, List.filter_cons, List.filter_nil, fireCount, hm, htop, if_true, decide_eq_true_eq]
    split_ifs <;> rfl
  | ctc =>
    obtain ⟨-, -, -, -, hocra, -⟩ := ctcRegs hm
    simp only [fired_of_ctc hm, List.filter_cons, List.filter_nil, fireCount, hm, hocra, reduceCtorEq, if_false,
      decide_eq_true_eq, Nat.add_eq_zero_iff, one_ne_zero, and_false]
    split_ifs <;> rfl

theorem Timer.Inv.fireCount_le_top (k : Fin 3) : tm.fireCount k ≤ tm.top := by
  obtain ⟨-, -, offRegs, normalRegs, ctcRegs⟩ := h
  have hcompare : tm.ocra ≤ tm.top ∧ tm.ocrb ≤ tm.top := by
    cases hm : tm.mode with
    | off => obtain ⟨-, htop, -, hocra, hocrb⟩ := offRegs hm; omega
    | normal => obtain ⟨-, htop, -, hocra, hocrb⟩ := normalRegs hm; omega
    | ctc => obtain ⟨-, -, -, -, hocra, hocrb⟩ := ctcRegs hm; omega
  obtain ⟨hocra, hocrb⟩ := hcompare
  match k with
  | 0 => exact le_rfl
  | 1 => rw [fireCount]; split <;> assumption
  | 2 => rw [fireCount]; split <;> omega

theorem Timer.Inv.top_pos (hmode : tm.mode ≠ .off) : 0 < tm.top := by
  obtain ⟨-, -, -, normalRegs, ctcRegs⟩ := h
  cases hm : tm.mode with
  | off => exact absurd hm hmode
  | normal => obtain ⟨-, htop, -⟩ := normalRegs hm; rw [htop]; exact Nat.two_pow_pos width
  | ctc => obtain ⟨-, htop, -⟩ := ctcRegs hm; exact htop

theorem Timer.Inv.atCount (hmode : tm.mode ≠ .off) (n : Nat) : Timer.Inv width ps { tm with tcnt := n % tm.top } := by
  have hlt := Nat.mod_lt n (h.top_pos hmode)
  refine h.withCount (fun hm => absurd hm hmode) (fun hm => ?_) (fun _ => hlt)
  obtain ⟨-, -, -, normalRegs, -⟩ := h
  obtain ⟨-, htop, -⟩ := normalRegs hm
  exact htop ▸ hlt

/-- An enabled slot that carries a handler is one that carries it: the enables follow the registry (10_state.md R46). -/
theorem Timer.Inv.enabled_and_carries (k : Fin 3) (hid : BitVec 8) :
    (tm.ie.getLsbD k.val && decide (tm.handler[k.val] = some hid)) = decide (tm.handler[k.val] = some hid) := by
  obtain ⟨henabled, -⟩ := h
  rw [henabled k]
  cases tm.handler[k.val] <;> simp

end

/-- Counting modulo `top`, tick `n` reaches the count `v` exactly when `n + 1` is `v` up to a multiple of `top`. -/
theorem dvd_add_sub_add_one_iff {top v n : Nat} (hpos : 0 < top) (hv : v ≠ 0) (hle : v ≤ top) :
    top ∣ n + top - v + 1 ↔ n % top + 1 = v := by
  have hdiv := Nat.div_add_mod n top
  have hmod := Nat.mod_lt n hpos
  rw [show n + top - v + 1 = top * (n / top) + (n % top + 1 + top - v) by omega,
    Nat.dvd_add_right (Nat.dvd_mul_right _ _)]
  constructor
  · intro hdvd
    have hone := Nat.eq_of_dvd_of_lt_two_mul (by omega) hdvd (by omega)
    omega
  · intro heq
    rw [heq, Nat.add_sub_cancel_left]

/-- How often a slot fires in `n` ticks from a counter at 0 (41_timer.md R157). -/
def Timer.firings (tm : Timer) (n : Nat) (k : Fin 3) : Nat :=
  if tm.fireCount k = 0 then 0 else (n + tm.top - tm.fireCount k) / tm.top

theorem Timer.Inv.firings_zero {tm : Timer} {width : Nat} {ps : List Nat} (h : tm.Inv width ps) (k : Fin 3) :
    tm.firings 0 k = 0 := by
  have hle := h.fireCount_le_top k
  unfold Timer.firings
  split
  · rfl
  · exact Nat.div_eq_of_lt (by omega)

theorem Timer.Inv.firings_succ {tm : Timer} {width : Nat} {ps : List Nat} (h : tm.Inv width ps)
    (hmode : tm.mode ≠ .off) (n : Nat) (k : Fin 3) :
    tm.firings (n + 1) k = tm.firings n k + if n % tm.top + 1 = tm.fireCount k then 1 else 0 := by
  have hle := h.fireCount_le_top k
  have hpos := h.top_pos hmode
  unfold Timer.firings
  split
  · rename_i hzero; simp [hzero]
  · rename_i hne
    rw [show n + 1 + tm.top - tm.fireCount k = n + tm.top - tm.fireCount k + 1 by omega, Nat.succ_div]
    simp only [dvd_add_sub_add_one_iff hpos hne hle]

/-- How many of these firings are PWM ticks (42_pwm_servo.md R187). -/
def Timer.pwmFirings (tm : Timer) (n : Nat) (k : Fin 3) : Nat :=
  if tm.handler[k.val] = some 0#8 then tm.firings n k else 0

theorem Timer.Inv.pwmFirings_succ {tm : Timer} {width : Nat} {ps : List Nat} (h : tm.Inv width ps)
    (hmode : tm.mode ≠ .off) (n : Nat) (k : Fin 3) :
    tm.pwmFirings (n + 1) k = tm.pwmFirings n k +
      if tm.handler[k.val] = some 0#8 ∧ n % tm.top + 1 = tm.fireCount k then 1 else 0 := by
  unfold Timer.pwmFirings
  rw [h.firings_succ hmode]
  by_cases h0 : tm.handler[k.val] = some 0#8 <;> simp only [h0, true_and, false_and, if_true, if_false]

/-- A fired slot with an external handler calls it back once when it is enabled (41_timer.md R157, R160). -/
theorem State.fireSlot_count (t : Fin 2) (j k : Fin 3) {h : BitVec 8} (h0 : h ≠ 0#8) (s : State) :
    (s.fireSlot t j).trace.count (.callback (.timer t k) h) =
      s.trace.count (.callback (.timer t k) h) + if (decide (j = k) && (s.tmr[t.val].ie.getLsbD j.val &&
        decide (s.tmr[t.val].handler[j.val] = some h))) = true then 1 else 0 := by
  unfold State.fireSlot
  cases s.tmr[t.val].ie.getLsbD j.val with
  | false => simp
  | true =>
    rw [if_pos rfl]
    cases hreg : s.tmr[t.val].handler[j.val] with
    | none => simp [State.dispatch, hreg]
    | some g =>
      rw [State.dispatch_of_registered hreg]
      rcases s.runHandler_cases (.timer t j) g with ⟨rfl, e⟩ | ⟨-, e⟩ <;> rw [e]
      · simp [h0.symm]
      · simp [List.count_singleton]

/-- The callbacks of a list of fired slots: one for each time its slot is in the list and enabled. -/
theorem State.foldl_fireSlot_count (t : Fin 2) (k : Fin 3) {h : BitVec 8} (h0 : h ≠ 0#8) (l : List (Fin 3))
    (s : State) :
    (l.foldl (State.fireSlot t) s).trace.count (.callback (.timer t k) h) =
      s.trace.count (.callback (.timer t k) h) + l.countP fun j =>
        decide (j = k) && (s.tmr[t.val].ie.getLsbD j.val && decide (s.tmr[t.val].handler[j.val] = some h)) := by
  induction l generalizing s with
  | nil => rfl
  | cons j l ih =>
    rw [List.foldl_cons, ih, (s.fireSlot_frame t j).tmr, State.fireSlot_count t j k h0, List.countP_cons]
    omega

theorem countP_slots (p : Fin 3 → Bool) : [0, 1, 2].countP p = ∑ k : Fin 3, if p k = true then 1 else 0 := by
  rw [Fin.sum_univ_three]
  simp only [List.countP_cons, List.countP_nil]
  omega

theorem evTmrtickRun_tmr {tid : BitVec 8} {t : Fin 2} (ht : tid.toNat = t.val) (s : State) :
    (evTmrtickRun tid s).tmr =
      s.tmr.set t.val { s.tmr[t.val] with tcnt := s.tmr[t.val].nextCount s.params.timerWidth[t.val] } t.isLt := by
  rw [evTmrtickRun_of_valid ht, (State.foldl_fireSlot_frame t _ _).tmr, State.setTimer_tmr]

section
variable {s : State} {tid : BitVec 8} {t : Fin 2} (ht : tid.toNat = t.val)
  (h : s.tmr[t.val].Inv s.params.timerWidth[t.val] s.params.prescalers[t.val]) (hmode : s.tmr[t.val].mode ≠ .off)
include ht h hmode

/-- The PWM ticks of one tick of a configured timer (42_pwm_servo.md R187). -/
theorem evTmrtickRun_pwm_eq :
    (evTmrtickRun tid s).pwm = (Pwm.tick s.params)^[∑ k : Fin 3,
      if s.tmr[t.val].handler[k.val] = some 0#8 ∧ s.tmr[t.val].tcnt + 1 = s.tmr[t.val].fireCount k then 1 else 0]
        s.pwm := by
  rw [evTmrtickRun_of_valid ht, State.foldl_fireSlot_pwm, h.fired_eq_filter hmode, List.countP_filter, countP_slots]
  simp only [State.setTimer_params, State.setTimer_pwm, State.setTimer_tmr, Vector.getElem_set_self,
    h.enabled_and_carries, Bool.and_eq_true, decide_eq_true_eq]

/-- The callbacks of one slot in one tick of a configured timer (41_timer.md R160). -/
theorem evTmrtickRun_count (k : Fin 3) {hid : BitVec 8} (h0 : hid ≠ 0#8)
    (hreg : s.tmr[t.val].handler[k.val] = some hid) :
    (evTmrtickRun tid s).trace.count (.callback (.timer t k) hid) =
      s.trace.count (.callback (.timer t k) hid) +
        if s.tmr[t.val].tcnt + 1 = s.tmr[t.val].fireCount k then 1 else 0 := by
  rw [evTmrtickRun_of_valid ht, State.foldl_fireSlot_count t k h0, h.fired_eq_filter hmode, List.countP_filter,
    countP_slots]
  simp only [State.setTimer_tmr, Vector.getElem_set_self, h.enabled_and_carries, State.setTimer_trace, Bool.and_eq_true,
    decide_eq_true_eq]
  have hterm : ∀ j : Fin 3, ((j = k ∧ s.tmr[t.val].handler[j.val] = some hid) ∧
      s.tmr[t.val].tcnt + 1 = s.tmr[t.val].fireCount j) ↔ j = k ∧ s.tmr[t.val].tcnt + 1 = s.tmr[t.val].fireCount k := by
    intro j
    constructor
    · rintro ⟨⟨rfl, -⟩, hcount⟩; exact ⟨rfl, hcount⟩
    · rintro ⟨rfl, hcount⟩; exact ⟨⟨rfl, hreg⟩, hcount⟩
  simp only [hterm, ite_and, Finset.sum_ite_eq', Finset.mem_univ, if_true]

end

theorem iterate_evTmrtickRun_params (tid : BitVec 8) (n : Nat) (s : State) :
    ((evTmrtickRun tid)^[n] s).params = s.params :=
  iterate_effect_params (.evTmrtick tid) n s

section
variable {s : State} {tid : BitVec 8} {t : Fin 2} (ht : tid.toNat = t.val)
  (h : s.tmr[t.val].Inv s.params.timerWidth[t.val] s.params.prescalers[t.val]) (hmode : s.tmr[t.val].mode ≠ .off)
  (hzero : s.tmr[t.val].tcnt = 0)
include ht h hmode hzero

/-- After `n` ticks from a counter at 0 the counter is at `n` modulo the selected count; nothing else of the timers has
moved (41_timer.md R158, R159). -/
theorem iterate_evTmrtickRun_tmr (n : Nat) :
    ((evTmrtickRun tid)^[n] s).tmr =
      s.tmr.set t.val { s.tmr[t.val] with tcnt := n % s.tmr[t.val].top } t.isLt := by
  induction n with
  | zero =>
    have hstart : { s.tmr[t.val] with tcnt := 0 } = s.tmr[t.val] := by rw [← hzero]
    rw [Nat.zero_mod, hstart]
    exact (congrArg State.tmr (s.setTimer_self t)).symm
  | succ n ih =>
    have hcount := (h.atCount hmode n).nextCount_eq_mod hmode
    rw [Nat.mod_add_mod] at hcount
    rw [Function.iterate_succ_apply', evTmrtickRun_tmr ht, iterate_evTmrtickRun_params]
    simp only [ih, Vector.getElem_set_self, Vector.set_set, hcount]

theorem iterate_evTmrtickRun_timer (n : Nat) :
    ((evTmrtickRun tid)^[n] s).tmr[t.val] = { s.tmr[t.val] with tcnt := n % s.tmr[t.val].top } := by
  simp only [iterate_evTmrtickRun_tmr ht h hmode hzero, Vector.getElem_set_self]

theorem iterate_evTmrtickRun_inv (n : Nat) :
    ((evTmrtickRun tid)^[n] s).tmr[t.val].Inv ((evTmrtickRun tid)^[n] s).params.timerWidth[t.val]
      ((evTmrtickRun tid)^[n] s).params.prescalers[t.val] := by
  rw [iterate_evTmrtickRun_timer ht h hmode hzero, iterate_evTmrtickRun_params]
  exact h.atCount hmode n

theorem iterate_evTmrtickRun_configured (n : Nat) : ((evTmrtickRun tid)^[n] s).tmr[t.val].mode ≠ .off := by
  rw [iterate_evTmrtickRun_timer ht h hmode hzero]
  exact hmode

theorem iterate_evTmrtickRun_pwm (n : Nat) :
    ((evTmrtickRun tid)^[n] s).pwm = (Pwm.tick s.params)^[∑ k : Fin 3, s.tmr[t.val].pwmFirings n k] s.pwm := by
  induction n with
  | zero => simp [Timer.pwmFirings, h.firings_zero]
  | succ n ih =>
    rw [Function.iterate_succ_apply', evTmrtickRun_pwm_eq ht (iterate_evTmrtickRun_inv ht h hmode hzero n)
      (iterate_evTmrtickRun_configured ht h hmode hzero n), iterate_evTmrtickRun_timer ht h hmode hzero,
      iterate_evTmrtickRun_params, ih, ← Function.iterate_add_apply]
    simp only [h.pwmFirings_succ hmode, Finset.sum_add_distrib]
    rw [Nat.add_comm]
    rfl

theorem iterate_evTmrtickRun_count (k : Fin 3) {hid : BitVec 8} (h0 : hid ≠ 0#8)
    (hreg : s.tmr[t.val].handler[k.val] = some hid) (n : Nat) :
    ((evTmrtickRun tid)^[n] s).trace.count (.callback (.timer t k) hid) =
      s.trace.count (.callback (.timer t k) hid) + s.tmr[t.val].firings n k := by
  induction n with
  | zero => rw [h.firings_zero]; rfl
  | succ n ih =>
    have htimer := iterate_evTmrtickRun_timer ht h hmode hzero n
    have hreg' : ((evTmrtickRun tid)^[n] s).tmr[t.val].handler[k.val] = some hid := by rw [htimer]; exact hreg
    rw [Function.iterate_succ_apply', evTmrtickRun_count ht (iterate_evTmrtickRun_inv ht h hmode hzero n)
      (iterate_evTmrtickRun_configured ht h hmode hzero n) k h0 hreg', htimer, ih, h.firings_succ hmode, Nat.add_assoc]
    rfl

end

/-- Slot 0 fires once per period (41_timer.md R158, R159). -/
theorem Timer.Inv.firings_slot_zero {tm : Timer} {width : Nat} {ps : List Nat} (h : tm.Inv width ps)
    (hmode : tm.mode ≠ .off) (n : Nat) : tm.firings n 0 = n / tm.top := by
  rw [Timer.firings, Timer.fireCount, if_neg (h.top_pos hmode).ne', Nat.add_sub_cancel]

/-- Only NORMAL registers a handler at slot 2 (10_state.md R44, R46). -/
theorem Timer.Inv.mode_of_slot_two {tm : Timer} {width : Nat} {ps : List Nat} (h : tm.Inv width ps) {hid : BitVec 8}
    (hreg : tm.handler[2] = some hid) : tm.mode = .normal := by
  obtain ⟨henabled, hbelow, -⟩ := h
  have hie : tm.ie.getLsbD (2 : Fin 3).val = true := by rw [henabled 2]; exact congrArg Option.isSome hreg
  have hslot : (2 : Fin 3).val < tm.nslots := by
    by_contra hle
    rw [hbelow 2 (Nat.not_lt.1 hle)] at hie
    contradiction
  rcases (tm.lt_nslots_iff 2).1 hslot with hnormal | ⟨-, hlt⟩
  · exact hnormal
  · exact absurd hlt (by decide)

/-- Settles O32: counter, callbacks and PWM ticks after `n` ticks, each by induction on `n`; slot by slot, the PWM ticks
are those of the statement. -/
theorem slotZeroFiresOncePerPeriod : Obligations.SlotZeroFiresOncePerPeriod := by
  intro s tid t n ht h hmode hzero tm passes
  refine ⟨(evTmrtickRun tid)^[n] s, execAll_replicate_event rfl n s, iterate_evTmrtickRun_tmr ht h hmode hzero n,
    fun hid h0 hreg => ?_, ?_⟩
  · rw [iterate_evTmrtickRun_count ht h hmode hzero 0 h0 hreg, h.firings_slot_zero hmode]
  · have hslot0 : tm.pwmFirings n 0 = if tm.handler[0] = some 0#8 then n / tm.top else 0 := by
      rw [Timer.pwmFirings, h.firings_slot_zero hmode]; rfl
    have hslot1 : tm.pwmFirings n 1 =
        if tm.handler[1] = some 0#8 then passes (if tm.mode = .normal then tm.ocra else tm.ocrb) else 0 := rfl
    have hslot2 : tm.pwmFirings n 2 = if tm.handler[2] = some 0#8 then passes tm.ocrb else 0 := by
      by_cases hreg : tm.handler[2] = some 0#8
      · have hnormal : tm.mode = .normal := h.mode_of_slot_two hreg
        simp [Timer.pwmFirings, Timer.firings, Timer.fireCount, passes, hnormal]
      · exact (if_neg hreg).trans (if_neg hreg).symm
    rw [iterate_evTmrtickRun_pwm ht h hmode hzero, Fin.sum_univ_three, ← hslot0, ← hslot1, ← hslot2]

end Sys2Proof.Machine
end

section
/-! PROOFS of the family 42_pwm_servo: the countdowns after reset, one PWM tick, the pulse between two rising ticks. -/

namespace Sys2Proof.Machine

/-- Settles O17: after reset the PWM group is the initial one, which is within the bounds. -/
theorem pwmBoundsHoldAtReset : Obligations.PwmBoundsHoldAtReset :=
  Pwm.bounded_initial Config.params

/-! ## One PWM tick -/

/-- The zero-extension of a width to Int32 is its value: no width is negative there (42_pwm_servo.md R181). -/
theorem toInt_setWidth_width (v : BitVec 16) : (v.setWidth 32).toInt = v.toNat := by
  rw [BitVec.toInt_setWidth, Int.bmod_eq_of_le] <;> omega

theorem width_toInt_pos_iff (v : BitVec 16) : 0 < (v.setWidth 32).toInt ↔ v ≠ 0#16 := by
  rw [toInt_setWidth_width, Int.natCast_pos, Nat.pos_iff_ne_zero]
  exact (BitVec.toNat_inj (y := 0#16)).not

/-- Settles O36: the two cases of the rising test; the falling test after a load is on the width just loaded. -/
theorem pwmTickRisesThenFalls : Obligations.PwmTickRisesThenFalls := by
  intro p w rise fall
  refine ⟨fun hdue => ?_, Pwm.tick_of_rise_not_due⟩
  rw [Pwm.tick_of_rise_due hdue]
  simp only [width_toInt_pos_iff]

/-! ## The pulse between two rising ticks -/

theorem LegalWidth.toNat_bounds {v : BitVec 16} (h : LegalWidth v) : 500 ≤ v.toNat ∧ v.toNat ≤ 2500 := by
  rcases h with rfl | rfl | rfl <;> decide

theorem LegalWidth.ne_zero {v : BitVec 16} (h : LegalWidth v) : v ≠ 0#16 := by
  rintro rfl
  exact absurd h (by decide)

/-- `n` is below the quotient of `a` by `T`, rounded up, exactly when `n` steps of `T` stay below `a`. -/
theorem lt_div_roundUp_iff {T : Nat} (hT : 1 ≤ T) (n a : Nat) : n < (a + T - 1) / T ↔ n * T < a := by
  rw [← Nat.ceilDiv_eq_add_pred_div, Nat.mul_comm]
  exact lt_iff_lt_of_le_iff_le (ceilDiv_le_iff_le_mul hT)

/-- `w` is `n` ticks after a rising tick that loaded `width`: both countdowns have lost `n` tick increments, without a
wrap, and the pin is high as long as the falling one has not run out (42_pwm_servo.md R184). -/
def Pwm.TicksAfterRise (p : Params) (width : BitVec 16) (n : Nat) (w : Pwm) : Prop :=
  w.nextRise.toInt = p.pwmPeriodUs - (n * p.pwmTickUs : Nat) ∧
  w.nextFall.toInt = width.toNat - (n * p.pwmTickUs : Nat) ∧
  (w.out = true ↔ n * p.pwmTickUs < width.toNat)

/-- The servo register plays no part in the course of a period (42_pwm_servo.md R186). -/
theorem Pwm.TicksAfterRise.withPulseWidth {p : Params} {w : Pwm} {width : BitVec 16} {n : Nat}
    (h : w.TicksAfterRise p width n) (v : BitVec 16) :
    Pwm.TicksAfterRise p width n { w with pulseWidth := v } := h

theorem Pwm.ticksAfterRise_zero {p : Params} {w : Pwm} {width : BitVec 16} (hp : p.Wf) (hwidth : LegalWidth width)
    (hrise : w.nextRise = BitVec.ofNat 32 p.pwmPeriodUs) (hfall : w.nextFall = width.setWidth 32)
    (hout : w.out = true) : w.TicksAfterRise p width 0 := by
  obtain ⟨-, -, -, -, hperiod, -⟩ := hp
  have hpos := hwidth.toNat_bounds
  rw [Pwm.TicksAfterRise, hrise, hfall, toInt_ofNat_of_lt hperiod, toInt_setWidth_width]
  simp only [hout, Nat.zero_mul, true_iff]
  omega

section
variable {p : Params} {w : Pwm} {width : BitVec 16} {n : Nat} (hp : p.Wf) (h : w.TicksAfterRise p width n)
include hp h

/-- While a period lasts, the next decrement of the rising countdown does not wrap. -/
theorem Pwm.TicksAfterRise.toInt_rise_next (hn : n * p.pwmTickUs < p.pwmPeriodUs) :
    (w.nextRise - BitVec.ofNat 32 p.pwmTickUs).toInt = p.pwmPeriodUs - ((n + 1) * p.pwmTickUs : Nat) := by
  obtain ⟨hrise, -, -⟩ := h
  obtain ⟨-, -, -, -, -, -, htick, -⟩ := hp
  rw [toInt_sub_ofNat htick (by omega), hrise, Nat.succ_mul]
  omega

theorem Pwm.TicksAfterRise.toInt_fall_next (hn : n * p.pwmTickUs < p.pwmPeriodUs) :
    (w.nextFall - BitVec.ofNat 32 p.pwmTickUs).toInt = width.toNat - ((n + 1) * p.pwmTickUs : Nat) := by
  obtain ⟨-, hfall, -⟩ := h
  obtain ⟨-, -, -, -, hperiod, -, htick, -⟩ := hp
  rw [toInt_sub_ofNat htick (by omega), hfall, Nat.succ_mul]
  omega

/-- A tick before the period is over moves both countdowns; the pin, once low, stays low (42_pwm_servo.md R181). -/
theorem Pwm.TicksAfterRise.tick (hn : (n + 1) * p.pwmTickUs < p.pwmPeriodUs) :
    (w.tick p).TicksAfterRise p width (n + 1) := by
  have hsucc : (n + 1) * p.pwmTickUs = n * p.pwmTickUs + p.pwmTickUs := Nat.succ_mul n p.pwmTickUs
  have hrise := h.toInt_rise_next hp (by omega)
  have hfall := h.toInt_fall_next hp (by omega)
  obtain ⟨-, -, hout⟩ := h
  rw [Pwm.tick_of_rise_not_due (by omega)]
  refine ⟨hrise, hfall, ?_⟩
  simp only [Bool.and_eq_true, decide_eq_true_eq, hout, hfall]
  omega

/-- The first tick at which the period is over loads the width that the servo register holds (42_pwm_servo.md R186). -/
theorem Pwm.TicksAfterRise.tick_of_period_over (hn : n * p.pwmTickUs < p.pwmPeriodUs)
    (hover : p.pwmPeriodUs ≤ (n + 1) * p.pwmTickUs) (hpos : w.pulseWidth ≠ 0#16) :
    w.tick p = { nextRise := BitVec.ofNat 32 p.pwmPeriodUs, nextFall := w.pulseWidth.setWidth 32, out := true,
                 pulseWidth := w.pulseWidth } := by
  have hrise := h.toInt_rise_next hp hn
  rw [Pwm.tick_of_rise_due (by omega), decide_eq_true ((width_toInt_pos_iff _).2 hpos)]

end

/-- Up to the end of the period the `n`-th tick is known, whatever was written to the servo register. -/
theorem Pwm.TicksAfterRise.ticksWith {p : Params} {w : Pwm} {width : BitVec 16} (hp : p.Wf)
    (h : w.TicksAfterRise p width 0) (vs : List (BitVec 16)) (hvs : vs.length * p.pwmTickUs < p.pwmPeriodUs) :
    (w.ticksWith p vs).TicksAfterRise p width vs.length := by
  induction vs using List.reverseRecOn with
  | nil => exact h
  | append_singleton vs v ih =>
    rw [List.length_append, List.length_singleton] at hvs ⊢
    have hbefore : vs.length * p.pwmTickUs < p.pwmPeriodUs := by rw [Nat.succ_mul] at hvs; omega
    rw [Pwm.ticksWith_concat]
    exact ((ih hbefore).withPulseWidth v).tick hp hvs

/-- Settles O37: by induction on the ticks of the period, and the tick that ends it. -/
theorem pwmWaveform : Obligations.PwmWaveform := by
  intro p w width hp hwidth hrise hfall hout
  have hstart := Pwm.ticksAfterRise_zero hp hwidth hrise hfall hout
  have ⟨_, _, _, _, _, htick, _⟩ := hp
  have hcount := lt_div_roundUp_iff htick
  refine ⟨fun vs hvs => ?_, fun vs v hv hlast => ?_⟩
  · rw [hcount] at hvs ⊢
    obtain ⟨-, -, hpin⟩ := hstart.ticksWith hp vs hvs
    exact hpin
  · have hvs : vs.length * p.pwmTickUs < p.pwmPeriodUs := (hcount _ _).1 (by omega)
    have hover : p.pwmPeriodUs ≤ (vs.length + 1) * p.pwmTickUs :=
      Nat.not_lt.1 ((hcount _ _).not.1 (by omega))
    rw [Pwm.ticksWith_concat]
    exact ((hstart.ticksWith hp vs hvs).withPulseWidth v).tick_of_period_over hp hvs hover hv.ne_zero

end Sys2Proof.Machine
end

section
/-! PROOFS of the family 43_lock_fsm: what an edge does to the entry, LOCK.CTRL in each lock state, the ways into
UNLOCKED and out of ALARMED, the course of a blink, the two combination commands. -/

namespace Sys2Proof.Machine

/-! ## The entry progress (43_lock_fsm.md R208 to R220) -/

theorem turned_toNat {e : Dir} (h : e ≠ .stationary) (dial : BitVec 4) :
    (turned e dial).toNat = (dial.toNat + if e = .clockwise then 1 else 15) % 16 := by
  cases e with
  | stationary => exact absurd rfl h
  | clockwise => simp [turned]
  | counterclockwise =>
    simp only [turned, reduceCtorEq, if_false]
    bv_omega

/-- One more visible pass, up to 255 (43_lock_fsm.md R213). -/
theorem satIncr_eq (n : BitVec 8) : satIncr n = BitVec.ofNat 8 (min (n.toNat + 1) 255) := by
  unfold satIncr
  split
  · rename_i hfull
    rw [hfull]
    rfl
  · rename_i hfull
    rw [Nat.min_eq_left (by bv_omega)]
    bv_omega

/-- Settles O39, branch by branch of the edge. -/
theorem edgeTurnsAdvancesOrClears : Obligations.EdgeTurnsAdvancesOrClears := by
  intro l e
  refine ⟨fun h => ?_, fun h hexp => ?_, fun h hexp hstage => ?_, fun h hexp hstage => ?_, rfl, rfl⟩
  · rw [Lock.takeEdge, if_pos h]
  · refine ⟨turned e l.dial, turned_toNat h l.dial, ?_⟩
    rw [Lock.takeEdge, if_neg h, if_pos hexp, Lock.move, satIncr_eq]
  · rw [Lock.takeEdge, if_neg h, if_neg hexp, dif_pos hstage]
    rfl
  · rw [Lock.takeEdge, if_neg h, if_neg hexp, dif_neg (by simp [hstage])]
    rfl

theorem Lock.takeEdge_badTries (l : Lock) (e : Dir) : (l.takeEdge e).badTries = l.badTries := by
  rw [l.takeEdge_frame e]

/-- `check_combination` is the match of 43_lock_fsm.md R220. -/
theorem Lock.checkCombination_iff (l : Lock) : l.checkCombination = true ↔ l.EntryMatches := by
  simp only [Lock.checkCombination, Bool.and_eq_true, beq_iff_eq, decide_eq_true_eq, and_assoc, Lock.EntryMatches,
    ← BitVec.toNat_inj (x := l.vc[1]), ← BitVec.toNat_inj (x := l.vc[2]), BitVec.reduceToNat]

theorem State.evaluate_of_match {s : State} (h : s.lock.EntryMatches) : s.evaluate = s.enterUnlocked := by
  rw [State.evaluate, if_pos (s.lock.checkCombination_iff.2 h)]

theorem State.evaluate_of_third_failure {s : State} (h : ¬ s.lock.EntryMatches) (hbad : s.lock.badTries = 2#2) :
    s.evaluate = s.setLock { s.lock with badTries := 3#2, lkState := .alarmed } := by
  rw [State.evaluate, if_neg (s.lock.checkCombination_iff.not.2 h), hbad]
  rfl

theorem State.evaluate_of_failure {s : State} (h : ¬ s.lock.EntryMatches) (hbad : s.lock.badTries ≠ 2#2) :
    s.evaluate =
      (s.setLock { s.lock.clearProgress with badTries := s.lock.badTries + 1#2 }).startBlink 4#3 := by
  have hnext : s.lock.badTries + 1#2 ≠ 3#2 := by bv_omega
  rw [State.evaluate, if_neg (s.lock.checkCombination_iff.not.2 h)]
  exact if_neg hnext

theorem State.lockedStep_of_no_press {s : State} {e : Dir} {pl : Bool}
    (h : ¬ (pl = true ∧ (s.lock.takeEdge e).stage = 2)) : s.lockedStep e pl = s.setLock (s.lock.takeEdge e) := by
  refine if_neg ?_
  simpa [Fin.ext_iff] using h

theorem State.lockedStep_of_press {s : State} {e : Dir} (h : (s.lock.takeEdge e).stage = 2) :
    s.lockedStep e true = (s.setLock (s.lock.takeEdge e)).evaluate := by
  refine if_pos ?_
  simpa [Fin.ext_iff] using h

/-! ## One invocation of LOCK.CTRL (43_lock_fsm.md R200) -/

section
variable {s : State} (hb : s.busy = false)
include hb

/-- An invocation that began no blink puts its display record out (43_lock_fsm.md R236). -/
theorem State.finishInvocation_of_idle : s.finishInvocation = s.emitDisplay := by
  rw [State.finishInvocation, hb]
  rfl

theorem State.finish_setLock (l : Lock) :
    (s.clearEdge.setLock l).finishInvocation.respond .ok none = s.invocationDone l := by
  rw [State.finishInvocation_of_idle (s := s.clearEdge.setLock l) hb]
  rfl

theorem State.finish_setLock_setPulseWidth (l : Lock) (w : BitVec 16) :
    ((s.clearEdge.setLock l).setPulseWidth w).finishInvocation.respond .ok none =
      (s.invocationDone l).withPulse w := by
  rw [State.finishInvocation_of_idle (s := (s.clearEdge.setLock l).setPulseWidth w) hb]
  rfl

end

/-- An invocation that began a blink leaves its display record for the end of the blink (43_lock_fsm.md R237). -/
theorem State.finishInvocation_startBlink (s : State) {n : BitVec 3} (hn : n ≠ 0#3) :
    (s.startBlink n).finishInvocation =
      { s with blink := { led := true, phases := n, start := s.usCounter, pendingDisplay := true } } := by
  rw [State.finishInvocation, State.busy, if_pos (by simpa using hn)]
  rfl

theorem Lock.withInputs_lkState (l : Lock) (bl br kv : Bool) (key : BitVec 4) :
    (l.withInputs bl br kv key).lkState = l.lkState := rfl

section
variable {s : State} (hb : s.busy = false) (bl br sw kv : Bool) (key : BitVec 4)
include hb

/-- The procedure of the lock state runs on the latched inputs (43_lock_fsm.md R200, R207). -/
theorem exec_lockCtrl :
    exec (.lockCtrl bl br sw kv key) s =
      .next (((s.setLock (s.lock.withInputs bl br kv key)).lockProcedure (bl && !s.lock.prevBl)
        (br && !s.lock.prevBr) (bl && br && !(s.lock.prevBl && s.lock.prevBr)) sw
        (releasedKey s.lock.prevKey (keyOperand kv key))).finishInvocation.respond .ok none) :=
  exec_of_host_of_not_busy hb rfl

theorem exec_lockCtrl_of_locked (hl : s.lock.lkState = .locked) :
    exec (.lockCtrl bl br sw kv key) s =
      .next (((s.clearEdge.setLock (s.lock.withInputs bl br kv key)).lockedStep s.qd.dir
        (bl && !s.lock.prevBl)).finishInvocation.respond .ok none) := by
  rw [exec_lockCtrl hb, State.lockProcedure, State.setLock_lock, Lock.withInputs_lkState, hl]
  rfl

theorem exec_lockCtrl_of_unlocked (hl : s.lock.lkState = .unlocked) :
    exec (.lockCtrl bl br sw kv key) s =
      .next (((s.clearEdge.setLock (s.lock.withInputs bl br kv key)).unlockedStep
        (bl && br && !(s.lock.prevBl && s.lock.prevBr)) (br && !s.lock.prevBr) sw).finishInvocation.respond
        .ok none) := by
  rw [exec_lockCtrl hb, State.lockProcedure, State.setLock_lock, Lock.withInputs_lkState, hl]
  rfl

/-- In CHANGING no blink begins. -/
theorem exec_lockCtrl_of_changing (hl : s.lock.lkState = .changing) :
    exec (.lockCtrl bl br sw kv key) s =
      .next (s.invocationDone ((s.lock.withInputs bl br kv key).changingStep sw
        (releasedKey s.lock.prevKey (keyOperand kv key)))) := by
  rw [exec_lockCtrl hb, State.lockProcedure, State.setLock_lock, Lock.withInputs_lkState, hl]
  exact congrArg Host.Outcome.next (State.finish_setLock hb _)

end

/-! ## LOCKED (43_lock_fsm.md R210 to R223) -/

/-- A button that is down now and was up at the previous invocation (43_lock_fsm.md R200). -/
theorem press_iff {b prev : Bool} : (b && !prev) = true ↔ b = true ∧ prev = false := by
  rw [Bool.and_eq_true, Bool.not_eq_true']

/-- Settles O40: with no press at stage 2 the lock only takes the edge. -/
theorem lockedInvocationHandlesTheEdge : Obligations.LockedInvocationHandlesTheEdge := by
  intro s bl br sw kv key hb hl l hpress
  rw [exec_lockCtrl_of_locked hb _ _ _ _ _ hl, State.lockedStep_of_no_press]
  · exact congrArg Host.Outcome.next (State.finish_setLock hb l)
  · rw [press_iff, and_assoc]
    exact hpress

/-- A left press at stage 2, after the edge, is evaluated (43_lock_fsm.md R218). -/
theorem exec_lockCtrl_of_press {s : State} (hb : s.busy = false) (br sw kv : Bool) (key : BitVec 4)
    (hl : s.lock.lkState = .locked) (hprev : s.lock.prevBl = false)
    (hstage : ((s.lock.withInputs true br kv key).takeEdge s.qd.dir).stage = 2) :
    exec (.lockCtrl true br sw kv key) s =
      .next ((s.clearEdge.setLock
        ((s.lock.withInputs true br kv key).takeEdge s.qd.dir)).evaluate.finishInvocation.respond .ok none) := by
  rw [exec_lockCtrl_of_locked hb _ _ _ _ _ hl, hprev]
  exact congrArg (fun t : State => Host.Outcome.next (t.finishInvocation.respond .ok none))
    (State.lockedStep_of_press hstage)

/-- Settles O41: the evaluation of a matching entry. -/
theorem matchingEntryUnlocks : Obligations.MatchingEntryUnlocks := by
  intro s br sw kv key hb hl hprev l hstage hmatch
  rw [exec_lockCtrl_of_press hb _ _ _ _ hl hprev hstage, State.evaluate_of_match hmatch]
  exact congrArg Host.Outcome.next (State.finish_setLock_setPulseWidth hb _ _)

/-- Settles O42: the evaluation of a wrong entry, ended by the blink it begins. -/
theorem failedEntryBlinks : Obligations.FailedEntryBlinks := by
  intro s br sw kv key hb hl hprev l hstage hwrong hbad
  have hkept : l.badTries ≠ 2#2 := (Lock.takeEdge_badTries _ _).trans_ne hbad
  rw [exec_lockCtrl_of_press hb _ _ _ _ hl hprev hstage, State.evaluate_of_failure hwrong hkept,
    State.finishInvocation_startBlink _ (by decide)]
  rfl

/-- Settles O43: the evaluation of a wrong entry at two bad tries. -/
theorem thirdFailureAlarms : Obligations.ThirdFailureAlarms := by
  intro s br sw kv key hb hl hprev l hstage hwrong hbad
  have hkept : l.badTries = 2#2 := (Lock.takeEdge_badTries _ _).trans hbad
  rw [exec_lockCtrl_of_press hb _ _ _ _ hl hprev hstage, State.evaluate_of_third_failure hwrong hkept]
  exact congrArg Host.Outcome.next (State.finish_setLock hb _)

/-! ## UNLOCKED, CHANGING and ALARMED (43_lock_fsm.md R224 to R235) -/

/-- Both buttons are down now, and were not both down at the previous invocation (43_lock_fsm.md R200). -/
theorem pressBoth_iff {bl br prevBl prevBr : Bool} :
    (bl && br && !(prevBl && prevBr)) = true ↔ bl = true ∧ br = true ∧ ¬ (prevBl = true ∧ prevBr = true) := by
  rw [Bool.and_eq_true, Bool.and_eq_true, Bool.not_eq_true', Bool.eq_false_iff, ne_eq, Bool.and_eq_true, and_assoc]

/-- Settles O44: the branches of `unlocked_step` in their order. -/
theorem unlockedInvocation : Obligations.UnlockedInvocation := by
  intro s bl br sw kv key hb hl l both right
  rw [exec_lockCtrl_of_unlocked hb _ _ _ _ _ hl, State.unlockedStep]
  refine ⟨fun hboth => ?_, fun hboth hsw hright => ?_, fun hboth hstay => ?_⟩
  · rw [if_pos (pressBoth_iff.2 hboth)]
    exact congrArg Host.Outcome.next (State.finish_setLock_setPulseWidth hb _ _)
  · rw [if_neg (pressBoth_iff.not.2 hboth), if_pos (Bool.and_eq_true_iff.2 ⟨hsw, press_iff.2 hright⟩)]
    exact congrArg Host.Outcome.next (State.finish_setLock hb _)
  · rw [if_neg (pressBoth_iff.not.2 hboth), if_neg]
    · exact congrArg Host.Outcome.next (State.finish_setLock hb _)
    · rw [Bool.and_eq_true, press_iff]
      exact hstay

/-- Settles O45: the commit, with `commit_valid` as its three conditions. -/
theorem changingCommits : Obligations.ChangingCommits := by
  intro s bl br kv key hb hl l
  rw [← s.lock.commitValid_iff, exec_lockCtrl_of_changing hb _ _ _ _ _ hl]
  refine ⟨if s.lock.commitValid then s.lock.stagedComb else s.lock.comb, ?_, fun hvalid k => ?_, fun hinvalid => ?_⟩
  · exact congrArg (fun l => Host.Outcome.next (s.invocationDone l)) l.commit_eq
  · obtain ⟨-, -, hrange⟩ := s.lock.commitValid_iff.1 hvalid
    rw [if_pos hvalid]
    exact Lock.stagedComb_toNat hrange k
  · exact if_neg hinvalid

theorem Lock.keyStroke_of_no_tens {l : Lock} {k : BitVec 4} (hk : k.toNat ≤ 9) (hidx : l.chgIdx.val < 6)
    (htens : l.chgTens = none) : l.keyStroke k = { l with chgTens := some k } := by
  rw [Lock.keyStroke, if_neg (Nat.not_lt.2 hk), dif_pos hidx, htens]

theorem Lock.keyStroke_of_tens {l : Lock} {k tens : BitVec 4} (hk : k.toNat ≤ 9) (hidx : l.chgIdx.val < 6)
    (htens : l.chgTens = some tens) :
    l.keyStroke k = { l with
      chgSlot := l.chgSlot.set l.chgIdx.val (BitVec.ofNat 7 (10 * tens.toNat + k.toNat)) hidx
      chgIdx := ⟨l.chgIdx.val + 1, by omega⟩
      chgTens := none } := by
  rw [Lock.keyStroke, if_neg (Nat.not_lt.2 hk), dif_pos hidx, htens]

theorem Lock.keyStroke_of_large_key {l : Lock} {k : BitVec 4} (hk : 9 < k.toNat) : l.keyStroke k = l := by
  rw [Lock.keyStroke, if_pos hk]

theorem Lock.keyStroke_of_full {l : Lock} (hidx : l.chgIdx = 6) (k : BitVec 4) : l.keyStroke k = l := by
  rw [Lock.keyStroke, dif_neg (by simp [hidx]), ite_self]

/-- Settles O46: a stroke is a released key, and one `key_stroke` of it. -/
theorem changingTakesKeyStrokes : Obligations.ChangingTakesKeyStrokes := by
  intro s bl br kv key hb hl l
  rw [exec_lockCtrl_of_changing hb _ _ _ _ _ hl]
  have stroke {k : BitVec 4} (hprev : s.lock.prevKey = some k) (hkv : kv = false) :
      l.changingStep true (releasedKey s.lock.prevKey (keyOperand kv key)) = l.keyStroke k := by
    rw [hprev, hkv]
    rfl
  refine ⟨fun k hprev hkv hk => ⟨fun hidx htens => ?_, fun tens hidx htens => ?_⟩, fun hnothing => ?_⟩
  · have hroom : l.chgIdx.val < 6 := by
      have hne : l.chgIdx ≠ 6 := hidx
      omega
    rw [stroke hprev hkv, Lock.keyStroke_of_no_tens (l := l) hk hroom htens]
  · rw [stroke hprev hkv, Lock.keyStroke_of_tens (l := l) hk hidx htens]
    rfl
  · suffices hkeep : l.changingStep true (releasedKey s.lock.prevKey (keyOperand kv key)) = l by rw [hkeep]
    cases kv with
    | true => rfl
    | false =>
      rcases hprev : s.lock.prevKey with _ | k
      · rfl
      · rw [← hprev, stroke hprev rfl]
        rcases hnothing with hkv | hnone | hfull | ⟨k', hk', hlarge⟩
        · contradiction
        · rw [hprev] at hnone
          contradiction
        · exact Lock.keyStroke_of_full (l := l) hfull k
        · obtain rfl : k = k' := Option.some.inj (hprev.symm.trans hk')
          exact Lock.keyStroke_of_large_key hlarge

/-- Settles O47: the alarm blink on the latched inputs. -/
theorem alarmedInvocationBlinks : Obligations.AlarmedInvocationBlinks := by
  intro s bl br sw kv key hb hl
  rw [exec_lockCtrl hb, State.lockProcedure, State.setLock_lock, Lock.withInputs_lkState, hl]
  dsimp only
  rw [State.alarmedStep, State.finishInvocation_startBlink _ (by decide)]
  rfl

/-! ## The ways out of ALARMED and into UNLOCKED -/

/-- The lock group but for the combination is written by LOCK.CTRL, when it is not held, and by the two resets, which
lock (10_state.md R69, 70_reset_and_hazards.md R290, R291). -/
theorem exec_lock_cases {i : Instr} {s t : State} (h : exec i s = .next t) :
    t.lock = { s.lock with comb := t.lock.comb } ∨
    (s.busy = false ∧ ∃ bl br sw kv key, i = .lockCtrl bl br sw kv key) ∨
    ((i = .evPorst ∨ i = .evSoftrst) ∧ t.lock.lkState = .locked) := by
  cases i with
  | lockCtrl bl br sw kv key =>
    rcases exec_cases h with ⟨-, -, rfl⟩ | ⟨hfree, -⟩
    · exact .inl rfl
    · exact .inr (.inl ⟨hfree.resolve_left nofun, bl, br, sw, kv, key, rfl⟩)
  | evPorst => cases h; exact .inr (.inr ⟨.inl rfl, rfl⟩)
  | evSoftrst => cases h; exact .inr (.inr ⟨.inr rfl, rfl⟩)
  | _ => exact .inl (exec_same (g := .lock) h (by simp [Group.writers, opcode]))

/-- All that an instruction but a reset may write of the lock group in ALARMED: the combination and the latches
(43_lock_fsm.md R235, R247). -/
theorem exec_lock_of_alarmed {i : Instr} {s t : State} (hl : s.lock.lkState = .alarmed) (h : exec i s = .next t)
    (hi : ¬ (i = .evPorst ∨ i = .evSoftrst)) :
    t.lock = { s.lock with comb := t.lock.comb, prevBl := t.lock.prevBl, prevBr := t.lock.prevBr,
                           prevKey := t.lock.prevKey } := by
  rcases exec_lock_cases h with hkeep | ⟨hb, bl, br, sw, kv, key, rfl⟩ | ⟨hreset, -⟩
  · rw [hkeep]
  · rw [alarmedInvocationBlinks s bl br sw kv key hb hl] at h
    cases h
    rfl
  · exact absurd hreset hi

/-- Settles O48: outside the combination and the latches nothing changes, and LOCK.CTRL writes the combination in
CHANGING alone. -/
theorem alarmIsLeftByResetsAlone : Obligations.AlarmIsLeftByResetsAlone := by
  intro i s t hl h
  refine ⟨fun hpor hsoft => ?_, fun hreset => ?_⟩
  · have hcomb (hstore : i ≠ .lockRstcomb) : t.lock.comb = s.lock.comb := by
      by_contra hne
      rcases writersOfTheCombination i s t h hne with ⟨hi, -⟩ | hi | ⟨bl, br, kv, key, -, hchanging, -⟩
      · exact hstore hi
      · exact hpor hi
      · exact absurd (hl.symm.trans hchanging) nofun
    rw [exec_lock_of_alarmed hl h (not_or.2 ⟨hpor, hsoft⟩)]
    exact ⟨hl, rfl, rfl, rfl, rfl, rfl, rfl, hcomb⟩
  · rcases hreset with rfl | rfl
    · cases h; rfl
    · cases h; rfl

/-- An evaluation unlocks only on a match (43_lock_fsm.md R218, R221). -/
theorem State.evaluate_unlocks {s : State} (hl : s.lock.lkState = .locked) (hu : s.evaluate.lock.lkState = .unlocked) :
    s.lock.EntryMatches := by
  rcases s.evaluate_cases with ⟨hmatch, -⟩ | ⟨-, -, e⟩ | ⟨-, -, e⟩
  · exact s.lock.checkCombination_iff.1 hmatch
  · rw [e] at hu
    contradiction
  · rw [e] at hu
    exact absurd (hl.symm.trans hu) nofun

/-- From LOCKED the lock goes to UNLOCKED only by a press at stage 2 with a matching entry, both after the edge
(43_lock_fsm.md R210, R218). -/
theorem State.lockedStep_unlocks {s : State} {e : Dir} {pl : Bool} (hl : s.lock.lkState = .locked)
    (hu : (s.lockedStep e pl).lock.lkState = .unlocked) :
    pl = true ∧ (s.lock.takeEdge e).stage = 2 ∧ (s.lock.takeEdge e).EntryMatches := by
  have hstill : (s.lock.takeEdge e).lkState = .locked := (s.lock.takeEdge_lkState e).trans hl
  by_cases hpress : pl = true ∧ (s.lock.takeEdge e).stage = 2
  · obtain ⟨rfl, hstage⟩ := hpress
    rw [State.lockedStep_of_press hstage] at hu
    exact ⟨rfl, hstage, State.evaluate_unlocks (s := s.setLock (s.lock.takeEdge e)) hstill hu⟩
  · rw [State.lockedStep_of_no_press hpress] at hu
    exact absurd (hstill.symm.trans hu) nofun

theorem Lock.keyStroke_lkState (l : Lock) (k : BitVec 4) : (l.keyStroke k).lkState = l.lkState := by
  rcases l.keyStroke_cases k with e | ⟨-, e⟩ | ⟨tens, h, -, -, e⟩ <;> rw [e]

/-- CHANGING is left only with the switch back (43_lock_fsm.md R228, R229). -/
theorem Lock.changingStep_lkState (l : Lock) (rel : Option (BitVec 4)) :
    (l.changingStep true rel).lkState = l.lkState := by
  cases rel with
  | none => rfl
  | some k => exact l.keyStroke_lkState k

/-- Settles O49: LOCK.CTRL unlocks from LOCKED and CHANGING as their procedures say, from ALARMED never, and no other
instruction does. -/
theorem onlyAMatchingEntryOrACommitUnlocks : Obligations.OnlyAMatchingEntryOrACommitUnlocks := by
  intro i s t h hu hnot
  rcases exec_lock_cases h with hkeep | ⟨hb, bl, br, sw, kv, key, rfl⟩ | ⟨-, hlocked⟩
  · exact absurd ((congrArg Lock.lkState hkeep).symm.trans hu) hnot
  · refine ⟨bl, br, sw, kv, key, rfl, hb, ?_⟩
    rcases hl : s.lock.lkState
    case locked =>
      rw [exec_lockCtrl_of_locked hb _ _ _ _ _ hl] at h
      cases h
      rw [State.respond_lock, State.finishInvocation_lock] at hu
      obtain ⟨hpress, hmatch⟩ :=
        State.lockedStep_unlocks (s := s.clearEdge.setLock (s.lock.withInputs bl br kv key)) hl hu
      obtain ⟨hdown, hup⟩ := press_iff.1 hpress
      exact .inr ⟨rfl, hdown, hup, hmatch⟩
    case unlocked => exact absurd hl hnot
    case changing =>
      refine .inl ⟨rfl, Bool.eq_false_iff.2 ?_⟩
      rintro rfl
      rw [exec_lockCtrl_of_changing hb _ _ _ _ _ hl] at h
      cases h
      exact hnot ((Lock.changingStep_lkState (s.lock.withInputs bl br kv key) _).symm.trans hu)
    case alarmed =>
      have hstill := congrArg Lock.lkState (exec_lock_of_alarmed hl h nofun)
      exact absurd (hl.symm.trans (hstill.symm.trans hu)) nofun
  · exact absurd (hlocked.symm.trans hu) nofun

/-! ## The course of a blink (43_lock_fsm.md R237 to R240) -/

/-- A blink with `left` phases left, `r` microseconds into the present one; with none left it is over and the LED off
(43_lock_fsm.md R238, R239). -/
structure State.InPhase (s : State) (left r : Nat) : Prop where
  phases : s.blink.phases.toNat = left
  led : s.blink.led = true ↔ left ≠ 0 ∧ left % 2 = 0
  elapsed : (s.usCounter - s.blink.start).toNat = r

theorem State.InPhase.busy_iff {s : State} {left r : Nat} (h : s.InPhase left r) : s.busy = true ↔ left ≠ 0 := by
  rw [State.busy, bne_iff_ne, ne_eq, ← BitVec.toNat_inj, h.phases]
  rfl

theorem State.InPhase.phaseOver_iff {s : State} {left r : Nat} (h : s.InPhase left r) :
    s.PhaseOver ↔ left ≠ 0 ∧ s.params.blinkPhaseUs ≤ r := by
  rw [State.PhaseOver, h.elapsed, ne_eq, ← BitVec.toNat_inj, h.phases]
  rfl

theorem State.microsecond_params (s : State) : s.microsecond.params = s.params := by
  rw [State.microsecond_eq]

theorem State.microsecond_usCounter (s : State) : s.microsecond.usCounter = s.usCounter + 1#32 := by
  rw [State.microsecond_eq]

theorem State.microsecond_blink (s : State) : s.microsecond.blink = s.blink := by
  rw [State.microsecond_eq]

/-- Up to `blink_advance` an EV.USTICK leaves the blink as it is, one microsecond further on. -/
theorem State.InPhase.microsecond {s : State} {left r : Nat} (h : s.InPhase left r) (hr : r + 1 < 2 ^ 32) :
    s.microsecond.InPhase left (r + 1) := by
  obtain ⟨hphases, hled, helapsed⟩ := h
  refine ⟨?_, ?_, ?_⟩ <;> rw [State.microsecond_blink]
  · exact hphases
  · exact hled
  · rw [State.microsecond_usCounter]
    bv_omega

/-- The end of a phase begins the next one, with the LED on in the phases of even number (43_lock_fsm.md R239). -/
theorem State.InPhase.endPhase {s : State} {left r : Nat} (h : s.InPhase (left + 1) r) : s.endPhase.InPhase left 0 := by
  obtain ⟨hphases, -, -⟩ := h
  have hleft : (s.blink.phases - 1#3).toNat = left := by bv_omega
  rw [State.endPhase_eq, even_phase_eq]
  refine ⟨hleft, ?_, by simp⟩
  dsimp only
  rw [Bool.and_eq_true, bne_iff_ne, beq_iff_eq, ne_eq, ← BitVec.toNat_inj, hleft]
  rfl

section
variable {s : State} {left r : Nat} (hphase : s.params.blinkPhaseUs < 2 ^ 32)
include hphase

/-- Inside a phase an EV.USTICK counts on (43_lock_fsm.md R239). -/
theorem State.InPhase.tick (h : s.InPhase left r) (hr : r + 1 < s.params.blinkPhaseUs) :
    (evUstickRun s).InPhase left (r + 1) := by
  have hnext := h.microsecond (by omega)
  have hstays : ¬ s.microsecond.PhaseOver := by
    rw [hnext.phaseOver_iff, State.microsecond_params]
    omega
  rwa [evUstickRun_eq, State.blinkAdvance_eq_if, if_neg hstays]

/-- The EV.USTICK that fills a phase ends it (43_lock_fsm.md R239). -/
theorem State.InPhase.tick_of_phase_over (h : s.InPhase (left + 1) r) (hr : r + 1 = s.params.blinkPhaseUs) :
    (evUstickRun s).InPhase left 0 := by
  have hnext := h.microsecond (by omega)
  have hover : s.microsecond.PhaseOver := by
    rw [hnext.phaseOver_iff, State.microsecond_params]
    omega
  rw [evUstickRun_eq, State.blinkAdvance_eq_if, if_pos hover]
  exact hnext.endPhase

end

theorem iterate_evUstickRun_params (s : State) (m : Nat) : (evUstickRun^[m] s).params = s.params :=
  iterate_effect_params .evUstick m s

/-- The quotient of the microseconds by the phase length counts the phases that are over, the remainder is the time
spent in the present one. -/
theorem State.InPhase.iterate {s : State} {n : Nat} (h : s.InPhase n 0) (hpos : 1 ≤ s.params.blinkPhaseUs)
    (hphase : s.params.blinkPhaseUs < 2 ^ 32) (m : Nat) (hm : m ≤ n * s.params.blinkPhaseUs) :
    (evUstickRun^[m] s).InPhase (n - m / s.params.blinkPhaseUs) (m % s.params.blinkPhaseUs) := by
  induction m with
  | zero => simpa using h
  | succ m ih =>
    have hnow := ih (Nat.le_of_succ_le hm)
    have hparams := iterate_evUstickRun_params s m
    have hover : m / s.params.blinkPhaseUs < n := (Nat.div_lt_iff_lt_mul hpos).2 hm
    have hlt := Nat.mod_lt m hpos
    have hsplit := Nat.mod_add_div m s.params.blinkPhaseUs
    rw [Function.iterate_succ_apply']
    obtain hin | hend : m % s.params.blinkPhaseUs + 1 < s.params.blinkPhaseUs ∨
        m % s.params.blinkPhaseUs + 1 = s.params.blinkPhaseUs := by omega
    · have ⟨hdiv, hmod⟩ : (m + 1) / s.params.blinkPhaseUs = m / s.params.blinkPhaseUs ∧
          (m + 1) % s.params.blinkPhaseUs = m % s.params.blinkPhaseUs + 1 :=
        (Nat.div_mod_unique hpos).2 ⟨by omega, hin⟩
      rw [hdiv, hmod]
      exact hnow.tick (by rwa [hparams]) (by rwa [hparams])
    · have ⟨hdiv, hmod⟩ : (m + 1) / s.params.blinkPhaseUs = m / s.params.blinkPhaseUs + 1 ∧
          (m + 1) % s.params.blinkPhaseUs = 0 :=
        (Nat.div_mod_unique hpos).2 ⟨by rw [Nat.mul_succ]; omega, hpos⟩
      have hleft : n - m / s.params.blinkPhaseUs = n - (m / s.params.blinkPhaseUs + 1) + 1 := by omega
      rw [hleft] at hnow
      rw [hdiv, hmod]
      exact hnow.tick_of_phase_over (by rwa [hparams]) (by rwa [hparams])

/-- Settles O51: the phases that are over and the time in the present one, after `m` microseconds. -/
theorem blinkLastsItsPhases : Obligations.BlinkLastsItsPhases := by
  intro s n m hwf hn hphases hstart hled hm
  obtain ⟨-, -, -, -, -, -, -, -, hpos, hphase⟩ := hwf
  have hbegin : s.InPhase n 0 := by
    refine ⟨?_, ?_, by simp [hstart]⟩
    · rcases hn with rfl | rfl <;> simp [hphases]
    · rcases hn with rfl | rfl <;> simp [hled]
  have hafter := hbegin.iterate hpos hphase m hm
  have hleft : n - m / s.params.blinkPhaseUs ≠ 0 ↔ m < n * s.params.blinkPhaseUs := by
    rw [Nat.sub_ne_zero_iff_lt, Nat.div_lt_iff_lt_mul hpos]
  refine ⟨_, execAll_replicate_event rfl m s, hafter.phases, ?_, ?_⟩
  · rw [← hleft]
    exact hafter.busy_iff
  · rw [← hleft]
    exact hafter.led

/-! ## The combination commands (43_lock_fsm.md R244, R245) -/

/-- Settles O52: the effect of the command. -/
theorem lockRstcombStoresTheDefault : Obligations.LockRstcombStoresTheDefault :=
  fun _ hb => exec_of_host_of_not_busy hb rfl

/-- Settles O53: the answer bit is the match. -/
theorem lockCheckAnswersTheMatch : Obligations.LockCheckAnswersTheMatch := by
  intro s hb
  have hbit : BitVec.ofBool s.lock.checkCombination = if s.lock.EntryMatches then 1#1 else 0#1 := by
    split
    · rename_i hmatch
      rw [s.lock.checkCombination_iff.2 hmatch]
      rfl
    · rename_i hwrong
      rw [Bool.eq_false_iff.2 (s.lock.checkCombination_iff.not.2 hwrong)]
      rfl
  rw [exec_of_host_of_not_busy hb rfl, effect, hbit]
  rfl

end Sys2Proof.Machine
end

section
/-! PROOFS of the family 60_exceptions: no step faults or gets stuck. -/

namespace Sys2Proof.Machine

/-- No step faults or is refused, whatever stands at the head of the channel it serves (60_exceptions.md R281). -/
theorem step_next (s : State) : ∃ t, step s = .next t := by
  cases hturns : s.turns with
  | nil => exact ⟨_, step_of_turns_nil hturns⟩
  | cons ch rest =>
    cases hd : decode (s.channel ch) with
    | op i n =>
      rw [step_of_op hturns hd]
      exact exec_next i _
    | illegal c why n => exact ⟨_, step_of_illegal hturns hd⟩
    | incomplete => exact ⟨_, step_of_incomplete hturns hd⟩

/-- Settles O11, for the instructions and for the steps. -/
theorem everyStepAnswersNext : Obligations.EveryStepAnswersNext :=
  ⟨exec_next, step_next⟩

end Sys2Proof.Machine
end

section
/-! PROOFS of the family 70_reset_and_hazards: what both resets assign, and the state they leave. -/

namespace Sys2Proof.Machine

/-- The assignments both resets make lead to the invariant from every state, whatever the combination. -/
theorem State.inv_resetFields (s : State) (comb : Vector (BitVec 4) 3) : (s.resetFields comb).Inv :=
  ⟨s.timersInv_resetFields comb, s.tickersInv_resetFields comb, legalWidth_positionWidth s.params s.params.posLocked,
    Lock.inv_initial comb, State.blinkInv_initial (s.resetFields_blink comb)⟩

/-- The state right after power-on already has what a reset assigns (70_reset_and_hazards.md R290, R293). -/
theorem State.reset_resetFields : State.reset.resetFields (drawnComb 0) = State.reset := rfl

/-- Settles O15: the state after reset is one that the reset assignments leave. -/
theorem invariantHoldsAtReset : Obligations.InvariantHoldsAtReset := by
  unfold Obligations.InvariantHoldsAtReset
  rw [← State.reset_resetFields]
  exact State.reset.inv_resetFields (drawnComb 0)

/-- Settles O54: the digits are the ones drawn for this power-on, and the next power-on draws anew. -/
theorem powerOnResetWritesEveryField : Obligations.PowerOnResetWritesEveryField :=
  fun s => ⟨drawnComb s.powerOns, s.powerOns + 1, exec_of_event rfl⟩

/-- Settles O55: the effect of the event, with the stored combination as the one assigned. -/
theorem softResetKeepsTheCombination : Obligations.SoftResetKeepsTheCombination :=
  fun _ => exec_of_event rfl

theorem State.resetFields_timers_off (s : State) (comb : Vector (BitVec 4) 3) (t : Fin 2) :
    (s.resetFields comb).tmr[t.val].mode = .off ∧ (s.resetFields comb).tmr[t.val].handler = #v[none, none, none] := by
  revert t
  exact Fin.forall_fin_two.2 ⟨⟨rfl, rfl⟩, ⟨rfl, rfl⟩⟩

theorem State.resetFields_tickers_detached (s : State) (comb : Vector (BitVec 4) 3) (t : Fin 2) :
    (s.resetFields comb).tk[t.val].attached = false := by
  revert t
  exact Fin.forall_fin_two.2 ⟨rfl, rfl⟩

/-- Either reset ends a blink in progress (70_reset_and_hazards.md R292). -/
theorem State.resetFields_not_busy (s : State) (comb : Vector (BitVec 4) 3) : (s.resetFields comb).busy = false :=
  State.busy_eq_false_iff.2 rfl

/-- Settles O56: the lock, the timers, the tickers, the PWM output, the decoder and the blink, group by group. -/
theorem resetLeavesTheInitialState : Obligations.ResetLeavesTheInitialState := by
  unfold Obligations.ResetLeavesTheInitialState
  rw [← State.reset_resetFields]
  have htimers := State.reset.resetFields_timers_off (drawnComb 0)
  have htickers := State.reset.resetFields_tickers_detached (drawnComb 0)
  have hidle := State.reset.resetFields_not_busy (drawnComb 0)
  exact ⟨rfl, rfl, rfl, rfl, rfl, rfl, rfl, htimers, htickers, rfl, rfl, rfl, rfl, rfl, rfl, hidle, rfl⟩

end Sys2Proof.Machine
end
